-- ==== Sys2Proof/Word.lean ====
section
/-! DEFINITION. The word types of the block (spec/00_scope.md R10, R11): unsigned values, bit 0 the least
significant. `BitVec` arithmetic is R11's arithmetic: `+`, `-`, `*` wrap, `/` rounds toward zero, `>>>` is logical. -/

namespace Sys2Proof

/-- A register-bus value, an address or a 32-bit datapath register (R8: 32-bit bus and buffer addresses). -/
abbrev Word := BitVec 32

/-- A raw response halfword, a block count or a block size (R8, R133). -/
abbrev Half := BitVec 16

/-- One byte of buffer memory or of a data FIFO (R84). -/
abbrev Byte := BitVec 8

end Sys2Proof
end

