-- ==== Sys2Proof/Config.lean ====
section
/-! DEFINITION. The implementation parameters of spec/00_scope.md R8, and the free values: what the spec leaves to
the environment or to the board. A free value is an `opaque` constant, so that no proof can see what it is. -/

namespace Sys2Proof

/-- The draw of OPEN (R354): no failure, failure before any bus transaction, failure after the configuration writes. -/
inductive AllocDraw where
  | none
  | failAtEntry
  | failAtExit
deriving DecidableEq, Repr, Inhabited

namespace Config

/-- `POLL_MAX`: most STAT reads in one bounded poll (R8). -/
def pollMax : Nat := 100

/-- `POLL_DELAY_US`: least microseconds between two reads of one poll (R8, R440); no step depends on it. -/
def pollDelayUs : Nat := 10

/-- `FIFO_DEPTH` in bytes (R8, R9). -/
def fifoDepth : Word := 32

/-- `F_MAX` in Hz (R8). -/
def fMax : Word := 19500000

/-- `F_MIN` in Hz (R8). -/
def fMin : Word := 304000

/-- `FAST_RATE_HZ` (R8). -/
def fastRateHz : Word := 26000000

/-- `FAST_RATE_CODE` (R8). -/
def fastRateCode : Word := 7

/-- `RESTO_MAX` (R8, R128). -/
def restoMax : Word := 0x7F

/-- `SPI_DISABLE_VALUE` (R8, R125). -/
def spiDisableValue : Word := 0

/-- `I_MASK_OPEN_VALUE` (R8, R131). -/
def iMaskOpenValue : Word := 0x60

/-- `PRTBUF_PARTIAL` (R8, R130). -/
def prtbufPartial : Word := 1

/-- `STRPCL_STOP` (R8, R121). -/
def strpclStop : Word := 1

/-- `STRPCL_START` (R8, R121). -/
def strpclStart : Word := 2

/-- `MMC_BASE`: base address of the controller's registers (R8, R81). -/
def mmcBase : Word := 0x41100000

/-- What a byte of buffer memory that nothing has written reads as. DESIGN CHOICE, unsafe (log 13): the spec gives
the caller-owned buffer no initial contents. -/
def unwrittenByte : Byte := 0

/-- The constraints R8 asks a model to check on a configuration, and R81's alignment of `MMC_BASE`. -/
abbrev Sound : Prop :=
  1 ≤ pollMax ∧ 1 ≤ fifoDepth.toNat ∧ 1 ≤ fMax.toNat ∧ fMax.toNat ≤ 0xFFFFFFFE ∧ fastRateHz ≠ 0 ∧
    mmcBase.toNat % 4 = 0

/-- `HOST_CAPS`: the open parameter of OPEN, no default (R8, D29). DESIGN CHOICE of width 32 (log 5). -/
opaque hostCaps : Word

/-- `HOST_VOLTAGES`: the open parameter of OPEN, no default (R8, D29). DESIGN CHOICE of width 32 (log 5). -/
opaque hostVoltages : Word

/-- The value of the `n`-th register read for which no answer is pending: a draw under no law (R60, U8; log 3). -/
opaque freeRead : Nat → Word

/-- The value of `alloc_draw` when no answer is pending, at draw number `n` (R354, U9; log 4). -/
opaque freeAlloc : Nat → AllocDraw

/-- `CLKRT_DECODE` (U4 of spec/93_implementation_defined.md): the bus rate in Hz the controller gives a divider code,
or none for "unspecified" (log 19). -/
opaque clkrtDecode : Word → Option Nat

end Config

end Sys2Proof
end

