-- ==== Sys2Proof/Syntax.lean ====
section
/-! DEFINITION. The requests of the block: one constructor of `Instr` per row of spec/opcode_table.json, with the
fields of the request word that the row leaves variable (spec/30_encoding.md R112 to R114). The operands are separate
port fields, not part of the word (R111, R116). -/

namespace Sys2Proof

/-- The response-type tag (R113). -/
inductive RType where
  | none
  | short
  | shortBusy
  | long
  | r3
deriving DecidableEq, Repr, Inhabited

/-- The operations, one constructor per row of the opcode table. The three EXECUTE forms carry `CMDIDX`, `RTYPE`,
`CRC`, `BUSYF` and `W4`; `DATA` and `DIR` tell the forms apart (R112, R137). -/
inductive Instr where
  /-- `EXEC`: a command with no data phase (R286). -/
  | exec (cmd : BitVec 6) (rtype : RType) (crc busyf w4 : Bool)
  /-- `EXEC.RD`: a command with a read data phase (R287). -/
  | execRd (cmd : BitVec 6) (rtype : RType) (crc busyf w4 : Bool)
  /-- `EXEC.WR`: a command with a write data phase (R288). -/
  | execWr (cmd : BitVec 6) (rtype : RType) (crc busyf w4 : Bool)
  /-- `SETRATE`: program the bus clock divider (R320); `CLKOFF` is this with `HZ = 0` (R119). -/
  | setRate
  /-- `OPEN`: initialise the controller (R350). -/
  | openHost
deriving DecidableEq, Repr

/-- The operand fields of the host port (R110, R111). -/
structure Operands where
  arg     : Word
  blocks  : Half
  blksize : Half
  buf     : Word
  hz      : Word
deriving DecidableEq, Repr

/-- The operand fields all zero. -/
def Operands.zero : Operands := { arg := 0, blocks := 0, blksize := 0, buf := 0, hz := 0 }

/-- A request as the host presents it: the request word and the operands (R110). -/
structure Request where
  req      : Word
  operands : Operands
deriving DecidableEq, Repr

/-- Why a request word is reserved, one name per condition of R115. -/
inductive Reserved where
  /-- `OP = 11`. -/
  | opcode
  /-- SET_RATE or OPEN with `REQ[31:2]` not 0. -/
  | fixedBits
  /-- EXECUTE with `REQ[31:16]` not 0. -/
  | highBits
  /-- EXECUTE with `RTYPE` 101, 110 or 111. -/
  | responseType
  /-- EXECUTE with `DIR = 1` and `DATA = 0`. -/
  | directionWithoutData
deriving DecidableEq, Repr

end Sys2Proof
end

