-- ==== Sys2Proof/WellFormed.lean ====
section
/-! DEFINITION. When an operation with its operands is one the spec gives a meaning. Every term of `Instr` is a word
the spec defines (reserved words are refused by the decoder), so the one check left is on the operands: the buffer
range of a data request must not pass the end of the address space (spec/20_memory.md R82, R95). -/

namespace Sys2Proof

/-- Does the operation have a data phase (`DATA = 1`)? -/
def Instr.hasData : Instr → Bool
  | .exec .. => false
  | .execRd .. => true
  | .execWr .. => true
  | .setRate => false
  | .openHost => false

/-- The buffer range `BUF .. BUF + BLOCKS*BLKSIZE - 1` ends at or below `2^32` (R82). -/
def Operands.bufferFits (o : Operands) : Bool :=
  decide (o.buf.toNat + o.blocks.toNat * o.blksize.toNat ≤ 2 ^ 32)

/-- An operation and its operands are well formed when a data request's buffer range fits (R82, R95). -/
def Instr.wellFormed (i : Instr) (o : Operands) : Bool :=
  !i.hasData || o.bufferFits

end Sys2Proof
end

