-- ==== Sys2Proof/Decode.lean ====
section
/-! DEFINITION. The decoder of request words and the encoder, both written from spec/30_encoding.md R112 to R115 and
R137. Decoding is total and rejects each reserved word under the name of the condition of R115 that holds. -/

namespace Sys2Proof

/-- `RTYPE` codes (R113); 101, 110 and 111 are reserved. -/
def RType.ofCode (c : BitVec 3) : Option RType :=
  if c = 0b000 then some .none
  else if c = 0b001 then some .short
  else if c = 0b010 then some .shortBusy
  else if c = 0b011 then some .long
  else if c = 0b100 then some .r3
  else Option.none

/-- The code of a response type (R113). -/
def RType.code : RType → BitVec 3
  | .none => 0b000
  | .short => 0b001
  | .shortBusy => 0b010
  | .long => 0b011
  | .r3 => 0b100

/-- `OP = REQ[1:0]` (R112). -/
def fieldOp (w : Word) : BitVec 2 := w.extractLsb' 0 2

/-- `CMDIDX = REQ[7:2]` (R112). -/
def fieldCmdIdx (w : Word) : BitVec 6 := w.extractLsb' 2 6

/-- `RTYPE = REQ[10:8]` (R112). -/
def fieldRType (w : Word) : BitVec 3 := w.extractLsb' 8 3

/-- `CRC = REQ[11]` (R112). -/
def fieldCrc (w : Word) : Bool := w.getLsbD 11

/-- `BUSYF = REQ[12]` (R112). -/
def fieldBusyf (w : Word) : Bool := w.getLsbD 12

/-- `DATA = REQ[13]` (R112). -/
def fieldData (w : Word) : Bool := w.getLsbD 13

/-- `DIR = REQ[14]` (R112). -/
def fieldDir (w : Word) : Bool := w.getLsbD 14

/-- `W4 = REQ[15]` (R112). -/
def fieldW4 (w : Word) : Bool := w.getLsbD 15

/-- `REQ[31:16]`, reserved for EXECUTE (R112). -/
def fieldHigh (w : Word) : Half := w.extractLsb' 16 16

/-- `REQ[31:2]`, reserved for SET_RATE and OPEN (R112). -/
def fieldFixed (w : Word) : BitVec 30 := w.extractLsb' 2 30

/-- The EXECUTE form that `DATA` and `DIR` select (R137); `DIR = 1` with `DATA = 0` is reserved (R115). -/
def decodeExecute (w : Word) (rt : RType) : Except Reserved Instr :=
  match fieldData w, fieldDir w with
  | false, false => .ok (.exec (fieldCmdIdx w) rt (fieldCrc w) (fieldBusyf w) (fieldW4 w))
  | false, true => .error .directionWithoutData
  | true, false => .ok (.execRd (fieldCmdIdx w) rt (fieldCrc w) (fieldBusyf w) (fieldW4 w))
  | true, true => .ok (.execWr (fieldCmdIdx w) rt (fieldCrc w) (fieldBusyf w) (fieldW4 w))

/-- The decoder of request words (R137), refusing the reserved words of R115. -/
def decode (w : Word) : Except Reserved Instr :=
  if fieldOp w = 0b00 then
    if fieldHigh w = 0 then
      match RType.ofCode (fieldRType w) with
      | some rt => decodeExecute w rt
      | none => .error .responseType
    else .error .highBits
  else if fieldOp w = 0b01 then
    if fieldFixed w = 0 then .ok .setRate else .error .fixedBits
  else if fieldOp w = 0b10 then
    if fieldFixed w = 0 then .ok .openHost else .error .fixedBits
  else .error .opcode

/-- An EXECUTE request word laid out as R112 draws it, most significant field first. -/
def encodeExecute (data dir : Bool) (cmd : BitVec 6) (rt : RType) (crc busyf w4 : Bool) : Word :=
  0#16 ++ BitVec.ofBool w4 ++ BitVec.ofBool dir ++ BitVec.ofBool data ++ BitVec.ofBool busyf ++ BitVec.ofBool crc ++
    rt.code ++ cmd ++ 0b00#2

/-- The encoder: the request word of an operation (R112 to R114). -/
def encode : Instr → Word
  | .exec cmd rt crc busyf w4 => encodeExecute false false cmd rt crc busyf w4
  | .execRd cmd rt crc busyf w4 => encodeExecute true false cmd rt crc busyf w4
  | .execWr cmd rt crc busyf w4 => encodeExecute true true cmd rt crc busyf w4
  | .setRate => 0b01
  | .openHost => 0b10

/-- What the decoder reads from a row's word as spec/opcode_table.json numbers its bits. Every row is one 32-bit
request word and its bit 0 is `REQ[0]` (R116), so the word is the number itself, whatever `nbits`. -/
def decodeTableWord (_nbits w : Nat) : Option Instr :=
  match decode (BitVec.ofNat 32 w) with
  | .ok i => some i
  | .error _ => none

end Sys2Proof
end

