-- ==== Sys2Proof/Machine/State.lean ====
section
/-! DEFINITION. The state of the block, of the environment as far as the block meets it, of the host port and of the
buffer, as plain data (spec/10_state.md R40 to R62), the state after reset (spec/70_reset_and_hazards.md R420), the
outcomes that are no next state, and one named update per field of `State`. -/

namespace Sys2Proof.Machine

/-! ### Names -/

/-- Poll polarity (R45, R151): `SET` = 0, `CLEAR` = 1. -/
inductive Polarity where
  | set
  | clear
deriving DecidableEq, Repr

/-- The timeout sites (R381). `SITE = NONE` is the absence of a site in the completion record (R117). -/
inductive Site where
  | clkStop
  | clkStart
  | cmdEnd
  | respTimeout
  | dataDone
  | prgDone
deriving DecidableEq, Repr

/-- The outcome codes of an operation (R117). -/
inductive Result where
  | ok
  | timeout
  | responseCrcMismatch
  | transferIoError
  | allocationFailure
deriving DecidableEq, Repr

/-- The four errors a procedure raises (R380); a Timeout carries its site (R381). -/
inductive Err where
  | timeout (site : Site)
  | responseCrcMismatch
  | transferIoError
  | allocationFailure
deriving DecidableEq, Repr

/-- The registers the block only reads (R54). -/
inductive ReadReg where
  | stat
  | res
  | rxfifo
deriving DecidableEq, Repr

/-- The registers the block only writes (R54). -/
inductive WriteReg where
  | strpcl
  | clkrt
  | spi
  | cmdat
  | resto
  | blklen
  | nob
  | prtbuf
  | iMask
  | cmd
  | argh
  | argl
  | txfifo
deriving DecidableEq, Repr

/-! ### Sequencing labels (R41)

One inductive per procedure. A label that holds two or more bus or buffer primitives is cut at each of them, because a
step performs one primitive (R14; log 7). -/

/-- Labels of EXECUTE (R280). `E2` writes three registers. -/
inductive ExecuteLabel where
  | e0 | e1 | e2 | e2Blklen | e2Resto | e3 | e4 | e5 | e6 | e7 | e8
deriving DecidableEq, Repr

/-- Labels of STOP_CLOCK (R170). -/
inductive StopClockLabel where
  | s0 | s1 | s2 | s3 | s4
deriving DecidableEq, Repr

/-- Labels of START_CLOCK (R172). -/
inductive StartClockLabel where
  | t0 | t1 | t2
deriving DecidableEq, Repr

/-- Labels of AWAIT (R150). `a0` carries the operands its caller passes (log 9). -/
inductive AwaitLabel where
  | a0 (mask : Word) (pol : Polarity) (site : Site)
  | a1 | a2 | a3 | a4
deriving DecidableEq, Repr

/-- Labels of ISSUE (R190). -/
inductive IssueLabel where
  | i0 | i1 | i2 | i3 | i4 | i5 | i6 | i7
deriving DecidableEq, Repr

/-- Labels of DECODE (R210). -/
inductive DecodeLabel where
  | dc0 | dc1 | dc2 | dc3 | dc4 | dc5 | dc6 | dc7 | dc8 | dc9 | dc10 | dc11 | dc12
deriving DecidableEq, Repr

/-- Labels of READ_PUMP (R241). `P4` reads RXFIFO, then writes the buffer at `p4Store`. -/
inductive ReadPumpLabel where
  | p0 | p1 | p2 | p3 | p4 | p4Store | p5 | p6 | p7 | p8 | p9
deriving DecidableEq, Repr

/-- Labels of WRITE_PUMP (R242). `W4` reads the buffer, then writes TXFIFO at `w4Send`. -/
inductive WritePumpLabel where
  | w0 | w1 | w2 | w3 | w4 | w4Send | w5 | w6 | w7 | w8 | w9 | w10 | w11
deriving DecidableEq, Repr

/-- Labels of SET_RATE (R320). -/
inductive SetRateLabel where
  | sr0 | sr1 | sr2 | sr3 | sr4 | sr5 | sr6
deriving DecidableEq, Repr

/-- Labels of OPEN (R350). -/
inductive OpenLabel where
  | o0 | o1 | o2 | o3 | o4 | o5 | o6
deriving DecidableEq, Repr

/-- The sequencing label: IDLE, or a label of a procedure (R41). -/
inductive Label where
  | idle
  | execute (l : ExecuteLabel)
  | stopClock (l : StopClockLabel)
  | startClock (l : StartClockLabel)
  | await (l : AwaitLabel)
  | issue (l : IssueLabel)
  | decode (l : DecodeLabel)
  | readPump (l : ReadPumpLabel)
  | writePump (l : WritePumpLabel)
  | setRate (l : SetRateLabel)
  | openHost (l : OpenLabel)
deriving DecidableEq, Repr

/-! ### Groups of registers -/

/-- `SEQ`, `STK` (innermost return label first) and `BUSY` (R41, R42). -/
structure Control where
  seq  : Label
  stk  : List Label
  busy : Bool
deriving DecidableEq, Repr

/-- The latched request registers (R43). -/
structure Latched where
  req     : Word
  arg     : Word
  blocks  : Half
  blksize : Half
  buf     : Word
  hz      : Word
deriving DecidableEq, Repr

/-- The poll engine registers (R45; log 30). -/
structure Poll where
  pcnt  : BitVec 8
  pmask : Word
  ppol  : Polarity
  psite : Site
deriving DecidableEq, Repr

/-- The data pump registers (R47), with the locals `v` of P4 and `b` of W4 (R241, R242; log 8). -/
structure Pump where
  rem   : Word
  cur   : Word
  chunk : Word
  j     : Word
  v     : Word
  b     : Byte
deriving DecidableEq, Repr

/-- The reassembly registers (R48). -/
structure Reassembly where
  ra : Half
  rb : Half
  rc : Half
  ri : BitVec 2
deriving DecidableEq, Repr

/-- The Response Buffer `RESP[0..3]` (R49). -/
structure Response where
  w0 : Word
  w1 : Word
  w2 : Word
  w3 : Word
deriving DecidableEq, Repr

/-- The Host Instance that OPEN returns (R52). -/
structure HostInst where
  caps     : Word
  voltages : Word
  fMin     : Word
  fMax     : Word
deriving DecidableEq, Repr

/-- The completion record (R50); `site = none` is `SITE = NONE` (R117). -/
structure Completion where
  result  : Result
  site    : Option Site
  crcSupp : Bool
  inst    : HostInst
deriving DecidableEq, Repr

/-- The divider registers (R51). -/
structure Divider where
  ratio : Word
  div   : Word
deriving DecidableEq, Repr

/-- The controller's write-only registers, each at the value the block last wrote (R54; log 14). -/
structure CtrlRegs where
  strpcl : Word
  clkrt  : Word
  spi    : Word
  cmdat  : Word
  resto  : Word
  blklen : Word
  nob    : Word
  prtbuf : Word
  iMask  : Word
  cmd    : Word
  argh   : Word
  argl   : Word
deriving DecidableEq, Repr

/-- The environment as the block meets it (R60, R61): the answers pending for reads of STAT, RES (the response FIFO)
and RXFIFO and for OPEN's `alloc_draw`, oldest first; the number of free values drawn so far; and the bytes appended to
the TX FIFO, oldest first (log 3, log 4, log 15). -/
structure Env where
  stat   : List Word
  res    : List Word
  rx     : List Word
  alloc  : List AllocDraw
  draws  : Nat
  tx     : List Byte
deriving DecidableEq, Repr

/-- One event of the observable trace (R62); a Delay carries no time (R440). -/
inductive Event where
  | read (offset value : Word)
  | write (offset value : Word)
  | delay
  | memRead (addr : Word) (value : Byte)
  | memWrite (addr : Word) (value : Byte)
deriving DecidableEq, Repr

/-- What the host does next (R110, R423, R420; log 11). -/
inductive HostMove where
  /-- Wait for `BUSY = 0`, then present the request (R423). -/
  | request (r : Request)
  /-- Present the request now, whatever `BUSY` is; while busy it is refused (R110, U6). -/
  | requestNow (r : Request)
  /-- Drive the reset input (R420, R421). -/
  | reset
  /-- Write a byte of buffer memory; a byte of a data request in progress is refused (R94, U11). -/
  | store (addr : Word) (value : Byte)
  /-- Do nothing for one step. -/
  | wait
deriving DecidableEq, Repr

/-- Buffer memory: the bytes that differ from what an unlisted address reads as, by rising address (R82; log 13). -/
abbrev Memory := List Host.Cell

/-! ### State -/

/-- The whole state (R40 to R62). `trace` is newest first (log 18). -/
structure State where
  ctl   : Control
  rq    : Latched
  flags : Word
  poll  : Poll
  snap  : Word
  pump  : Pump
  asm   : Reassembly
  resp  : Response
  done  : Completion
  rate  : Divider
  alloc : AllocDraw
  port  : Operands
  host  : List HostMove
  ctrl  : CtrlRegs
  env   : Env
  mem   : Memory
  trace : List Event
deriving DecidableEq, Repr

/-- The machine after reset. `SEQ = IDLE`, `STK` empty and `BUSY = 0` are R420's. Every other block register is
"unspecified" there: its value here is a DESIGN CHOICE, unsafe (log 1). The environment has no answer pending, the
host no move, memory nothing listed and the trace no event (log 3, 11, 13, 14, 15, 18). -/
def State.reset : State where
  ctl := { seq := .idle, stk := [], busy := false }
  rq := { req := 0, arg := 0, blocks := 0, blksize := 0, buf := 0, hz := 0 }
  flags := 0
  poll := { pcnt := 0, pmask := 0, ppol := .set, psite := .clkStop }
  snap := 0
  pump := { rem := 0, cur := 0, chunk := 0, j := 0, v := 0, b := 0 }
  asm := { ra := 0, rb := 0, rc := 0, ri := 0 }
  resp := { w0 := 0, w1 := 0, w2 := 0, w3 := 0 }
  done := { result := .ok, site := none, crcSupp := false, inst := { caps := 0, voltages := 0, fMin := 0, fMax := 0 } }
  rate := { ratio := 0, div := 0 }
  alloc := .none
  port := Operands.zero
  host := []
  ctrl := { strpcl := 0, clkrt := 0, spi := 0, cmdat := 0, resto := 0, blklen := 0, nob := 0, prtbuf := 0, iMask := 0,
            cmd := 0, argh := 0, argl := 0 }
  env := { stat := [], res := [], rx := [], alloc := [], draws := 0, tx := [] }
  mem := []
  trace := []

/-! ### Outcomes that are no next state -/

/-- Why the machine stops with a fault. The spec gives the block none (R96, R396). -/
inductive Fault where
  /-- Raised by a meaning when `BUSY = 1` and `SEQ` is IDLE or a label of a procedure that the operation does not run.
  Safe: no run from reset reaches such a state (log 20). -/
  | noStep
deriving DecidableEq, Repr

/-- Why a run is refused. -/
inductive Refusal where
  /-- Raised by no arm: every instruction has its meaning. Safe. -/
  | notModelled (mnemonic : String)
  /-- Raised by the host port for a reserved request word (R115, U5). Safe: the spec gives it no step. -/
  | reservedRequest (why : Reserved)
  /-- Raised by every meaning, and by the host port, for a request presented while `BUSY = 1` (R110, U6). Safe. -/
  | requestWhileBusy
  /-- Raised by the data forms of EXECUTE when `BUF + BLOCKS*BLKSIZE > 2^32` (R95, U7). Safe. -/
  | bufferWrap
  /-- Raised by the host port when the host writes a byte of the buffer the block owns (R94, U11). Safe. -/
  | ownedBuffer
deriving DecidableEq, Repr

/-! ### One update per field -/

/-- `s` with control registers `x`. -/
def State.setCtl (s : State) (x : Control) : State := { s with ctl := x }
/-- `s` with latched request `x`. -/
def State.setRq (s : State) (x : Latched) : State := { s with rq := x }
/-- `s` with `FLAGS` at `x`. -/
def State.setFlags (s : State) (x : Word) : State := { s with flags := x }
/-- `s` with poll engine registers `x`. -/
def State.setPoll (s : State) (x : Poll) : State := { s with poll := x }
/-- `s` with `SNAP` at `x`. -/
def State.setSnap (s : State) (x : Word) : State := { s with snap := x }
/-- `s` with data pump registers `x`. -/
def State.setPump (s : State) (x : Pump) : State := { s with pump := x }
/-- `s` with reassembly registers `x`. -/
def State.setAsm (s : State) (x : Reassembly) : State := { s with asm := x }
/-- `s` with Response Buffer `x`. -/
def State.setResp (s : State) (x : Response) : State := { s with resp := x }
/-- `s` with completion record `x`. -/
def State.setDone (s : State) (x : Completion) : State := { s with done := x }
/-- `s` with divider registers `x`. -/
def State.setRate (s : State) (x : Divider) : State := { s with rate := x }
/-- `s` with OPEN's draw at `x`. -/
def State.setAlloc (s : State) (x : AllocDraw) : State := { s with alloc := x }
/-- `s` with the port's operand lines at `x`. -/
def State.setPort (s : State) (x : Operands) : State := { s with port := x }
/-- `s` with host moves `x`. -/
def State.setHost (s : State) (x : List HostMove) : State := { s with host := x }
/-- `s` with controller registers `x`. -/
def State.setCtrl (s : State) (x : CtrlRegs) : State := { s with ctrl := x }
/-- `s` with environment `x`. -/
def State.setEnv (s : State) (x : Env) : State := { s with env := x }
/-- `s` with buffer memory `x`. -/
def State.setMem (s : State) (x : Memory) : State := { s with mem := x }
/-- `s` with trace `x`. -/
def State.setTrace (s : State) (x : List Event) : State := { s with trace := x }

end Sys2Proof.Machine
end

