-- ==== Sys2Proof/Machine/Operands.lean ====
section
/-! DEFINITION. Operand forms: the fields of the latched request, the parts of a bus value the block uses, and the
values assembled from them (spec/30_encoding.md R132 to R136, spec/43_response_decoder.md R212, spec/44_data_pump.md
R240 and R243, spec/46_clock_rate.md R323). No field is scaled or sign-extended (R136). -/

namespace Sys2Proof.Machine

/-! ### Fields of the latched request word (R112) -/

/-- `CMDIDX`. -/
def State.cmdIdx (s : State) : BitVec 6 := fieldCmdIdx s.rq.req

/-- `RTYPE`. An accepted word is never reserved, so the reading of a reserved code as `none` is met by no run
(log 23). -/
def State.rtype (s : State) : RType := (RType.ofCode (fieldRType s.rq.req)).getD .none

/-- `CRC`. -/
def State.crc (s : State) : Bool := fieldCrc s.rq.req

/-- `BUSYF`. -/
def State.busyf (s : State) : Bool := fieldBusyf s.rq.req

/-- `DATA`. -/
def State.data (s : State) : Bool := fieldData s.rq.req

/-- `DIR`. -/
def State.dir (s : State) : Bool := fieldDir s.rq.req

/-- `W4`. -/
def State.w4 (s : State) : Bool := fieldW4 s.rq.req

/-! ### Parts of values -/

/-- `ARG[31:16]` zero-extended: what ARGH receives (R132, R135). -/
def argHigh (w : Word) : Word := (w.extractLsb' 16 16).setWidth 32

/-- `ARG[15:0]` zero-extended: what ARGL receives (R132, R135). -/
def argLow (w : Word) : Word := (w.extractLsb' 0 16).setWidth 32

/-- The halfword of a RES read, bits [15:0] (R84, R133). -/
def lowHalf (w : Word) : Half := w.extractLsb' 0 16

/-- The byte of an RXFIFO read or a TXFIFO write, bits [7:0] (R84, R134). -/
def lowByte (w : Word) : Byte := w.extractLsb' 0 8

/-! ### Response reassembly (R212) -/

/-- `{prev[7:0], mid[15:0], high[15:8]}`. -/
def responseWord (prev mid high : Half) : Word :=
  prev.extractLsb' 0 8 ++ mid ++ high.extractLsb' 8 8

/-- `RESP[i]`. -/
def Response.get (r : Response) (i : BitVec 2) : Word :=
  match i.toNat with
  | 0 => r.w0
  | 1 => r.w1
  | 2 => r.w2
  | _ => r.w3

/-- `RESP[i] <- v`. -/
def Response.put (r : Response) (i : BitVec 2) (v : Word) : Response :=
  match i.toNat with
  | 0 => { r with w0 := v }
  | 1 => { r with w1 := v }
  | 2 => { r with w2 := v }
  | _ => { r with w3 := v }

/-! ### Transfer length and chunks -/

/-- `N = BLOCKS * BLKSIZE`, exact in 32 bits (R240). -/
def transferLength (blocks blksize : Half) : Word :=
  blocks.setWidth 32 * blksize.setWidth 32

/-- `min(REM, FIFO_DEPTH)` (R243). -/
def chunkSize (rem : Word) : Word :=
  if rem ≤ Config.fifoDepth then rem else Config.fifoDepth

/-- Is `addr` one of `BUF .. BUF + BLOCKS*BLKSIZE - 1` of the latched request (R82)? -/
def Latched.covers (q : Latched) (addr : Word) : Bool :=
  decide (q.buf.toNat ≤ addr.toNat ∧ addr.toNat < q.buf.toNat + q.blocks.toNat * q.blksize.toNat)

/-! ### The divider (R320, R323) -/

/-- `F_MAX / HZ` rounded up to even: SR3. -/
def evenRatio (hz : Word) : Word :=
  Config.fMax / hz + Config.fMax / hz % 2

/-- SR4's loop: halve the ratio, counting, until it is 1 or less; at most `fuel` times. -/
def halveFrom : Nat → Divider → Divider
  | 0, d => d
  | fuel + 1, d =>
    if d.ratio > 1 then halveFrom fuel { ratio := d.ratio >>> 1, div := d.div + 1 } else d

/-- The whole loop of SR4 from `DIV = 0`. A 32-bit ratio reaches 0 in 32 halvings, so the fuel never cuts it short
(log 29). -/
def halvings (ratio : Word) : Divider := halveFrom 32 { ratio := ratio, div := 0 }

end Sys2Proof.Machine
end

