-- ==== Sys2Proof/Machine/Flags.lean ====
section
/-! DEFINITION. Status bits and flag words: the STAT bits and the error mask (spec/30_encoding.md R122, R123), the poll
condition (spec/40_bounded_poll.md R151), the CMDAT word (R126, R127; spec/42_command_issuer.md R190 to R192), and the
codes of the completion record (R117). -/

namespace Sys2Proof.Machine

/-! ### STAT (R122, R123)

Each position is a named parameter at the default R122 shows; nothing else in the model names a bit of STAT. -/

/-- Bit 0, READ_TIME_OUT. -/
def bitReadTimeOut : Nat := 0
/-- Bit 1, TIME_OUT_RESPONSE. -/
def bitTimeOutResponse : Nat := 1
/-- Bit 2, CRC_WRITE_ERROR. -/
def bitCrcWriteError : Nat := 2
/-- Bit 3, CRC_READ_ERROR. -/
def bitCrcReadError : Nat := 3
/-- Bit 4, SPI_READ_ERROR_TOKEN. -/
def bitSpiReadErrorToken : Nat := 4
/-- Bit 5, RES_CRC_ERR. -/
def bitResCrcErr : Nat := 5
/-- Bit 6, TXRDY. -/
def bitTxrdy : Nat := 6
/-- Bit 7, RXRDY. -/
def bitRxrdy : Nat := 7
/-- Bit 8, CLK_EN. -/
def bitClkEn : Nat := 8
/-- Bit 11, DATA_TRAN_DONE. -/
def bitDataTranDone : Nat := 11
/-- Bit 12, PRG_DONE. -/
def bitPrgDone : Nat := 12
/-- Bit 13, END_CMD_RES. -/
def bitEndCmdRes : Nat := 13

/-- Is bit `n` of a bus value set? -/
def bitSet (w : Word) (n : Nat) : Bool := w.getLsbD n

/-- The mask `1<<n`. -/
def bitMask (n : Nat) : Word := 1#32 <<< n

/-- `ERR_MASK`, the combined error mask: the six STAT bits the pumps read (R122, R123). -/
def errMask : Word :=
  bitMask bitReadTimeOut ||| bitMask bitTimeOutResponse ||| bitMask bitCrcWriteError ||| bitMask bitCrcReadError |||
    bitMask bitSpiReadErrorToken ||| bitMask bitResCrcErr

/-- Does a snapshot hold an error bit, `(SNAP & ERR_MASK) != 0` (R241 P6, R242 W7)? -/
def hasError (snap : Word) : Bool := snap &&& errMask != 0

/-- The poll condition `met(s, m, pol)` (R151). -/
def met (s m : Word) : Polarity → Bool
  | .set => s &&& m != 0
  | .clear => s &&& m == 0

/-! ### CMDAT (R126, R127) -/

/-- `RSPFMT(rtype)`, CMDAT[1:0] (R127, R191). -/
def rspFmt : RType → BitVec 2
  | .none => 0b00
  | .short => 0b01
  | .shortBusy => 0b01
  | .long => 0b10
  | .r3 => 0b11

/-- DATA_EN, bit 2. -/
def flagDataEn : Word := bitMask 2
/-- WRITE, bit 3. -/
def flagWrite : Word := bitMask 3
/-- BUSY, bit 5. -/
def flagBusy : Word := bitMask 5
/-- SD_4DAT, bit 8 (R126 as 90_conflicts.md C15 settles it; log 16). -/
def flagSd4dat : Word := bitMask 8

/-- `w | f` when `b`, else `w`. -/
def orWhen (b : Bool) (w f : Word) : Word := if b then w ||| f else w

/-! ### Codes of the completion record (R117) and of PPOL (R45) -/

/-- `RESULT`. -/
def Result.code : Result → BitVec 3
  | .ok => 0
  | .timeout => 1
  | .responseCrcMismatch => 2
  | .transferIoError => 3
  | .allocationFailure => 4

/-- A timeout site's `SITE` code (R381). -/
def Site.code : Site → BitVec 3
  | .clkStop => 1
  | .clkStart => 2
  | .cmdEnd => 3
  | .respTimeout => 4
  | .dataDone => 5
  | .prgDone => 6

/-- `SITE` as the host reads it: 0 is `NONE`. -/
def Completion.siteCode (c : Completion) : BitVec 3 :=
  match c.site with
  | none => 0
  | some site => site.code

/-- `PPOL`: `SET` = 0, `CLEAR` = 1. -/
def Polarity.code : Polarity → BitVec 1
  | .set => 0
  | .clear => 1

/-- The `RESULT` an error gives (R380). -/
def Err.result : Err → Result
  | .timeout _ => .timeout
  | .responseCrcMismatch => .responseCrcMismatch
  | .transferIoError => .transferIoError
  | .allocationFailure => .allocationFailure

/-- The `SITE` an error gives: a Timeout's own site, else `NONE` (R381). -/
def Err.site : Err → Option Site
  | .timeout site => some site
  | .responseCrcMismatch => none
  | .transferIoError => none
  | .allocationFailure => none

end Sys2Proof.Machine
end

