-- ==== Sys2Proof/Machine/Ops.lean ====
section
/-! DEFINITION. The named operations over the state: the pseudocode primitives of spec/00_scope.md R12, buffer memory,
sequencing with the call stack (spec/10_state.md R41, spec/45_host_adapter.md R292), completion and raising an error,
which is the block's taking of an exception (spec/60_exceptions.md R380, R387), acceptance (spec/30_encoding.md R110)
and reset (spec/70_reset_and_hazards.md R420, R421). -/

namespace Sys2Proof.Machine

/-! ### Buffer memory -/

/-- The byte at an address. -/
def Memory.read : Memory → Nat → Byte
  | [], _ => Config.unwrittenByte
  | (k, c) :: m, a => if k = a then c else Memory.read m a

/-- A cell put in front of `m`, unless it says what an unlisted address reads as. -/
def Memory.cons (a : Nat) (v : Byte) (m : Memory) : Memory :=
  if v = Config.unwrittenByte then m else (a, v) :: m

/-- `m` with the byte at `a` set to `v`, in the canonical form. -/
def Memory.write : Memory → Nat → Byte → Memory
  | [], a, v => Memory.cons a v []
  | (k, c) :: m, a, v =>
    if a < k then Memory.cons a v ((k, c) :: m)
    else if a = k then Memory.cons a v m
    else (k, c) :: Memory.write m a v

/-- The canonical form: addresses strictly rising and below `2^32` (R82), no cell that says what an unlisted address
reads as. -/
def Memory.wf : Memory → Bool
  | [] => true
  | (k, c) :: m => decide (k < 2 ^ 32) && c != Config.unwrittenByte && m.all (fun x => k < x.1) && Memory.wf m

/-! ### Register map (R120) -/

/-- Offset of a read-only register. -/
def ReadReg.offset : ReadReg → Word
  | .stat => 0x04
  | .res => 0x3C
  | .rxfifo => 0x40

/-- Offset of a write-only register. -/
def WriteReg.offset : WriteReg → Word
  | .strpcl => 0x00
  | .clkrt => 0x08
  | .spi => 0x0C
  | .cmdat => 0x10
  | .resto => 0x14
  | .blklen => 0x1C
  | .nob => 0x20
  | .prtbuf => 0x24
  | .iMask => 0x28
  | .cmd => 0x30
  | .argh => 0x34
  | .argl => 0x38
  | .txfifo => 0x44

/-- The bus address of an offset, `MMC_BASE + offset` (R12, R81). -/
def busAddress (offset : Word) : Word := Config.mmcBase + offset

/-! ### Register reads: draws (R60) -/

/-- The answers pending for a register. -/
def Env.pending (e : Env) : ReadReg → List Word
  | .stat => e.stat
  | .res => e.res
  | .rxfifo => e.rx

/-- The environment after one read of a register: its oldest pending answer is consumed, or, where none is pending, one
more free value is drawn. RES and RXFIFO reads are consuming reads (R61, R86). -/
def Env.consume (e : Env) (r : ReadReg) : Env :=
  match e.pending r with
  | [] => { e with draws := e.draws + 1 }
  | _ :: rest =>
    match r with
    | .stat => { e with stat := rest }
    | .res => { e with res := rest }
    | .rxfifo => { e with rx := rest }

/-- The value `RegRead(r)` returns in `s` (R12, R60): the oldest pending answer, else a free value. -/
def readValue (r : ReadReg) (s : State) : Word :=
  match s.env.pending r with
  | [] => Config.freeRead s.env.draws
  | v :: _ => v

/-- The trace with one more event. -/
def log (e : Event) (s : State) : State := s.setTrace (e :: s.trace)

/-- The state after `RegRead(r)`. -/
def afterRead (r : ReadReg) (s : State) : State :=
  log (.read r.offset (readValue r s)) (s.setEnv (s.env.consume r))

/-! ### Register writes -/

/-- The controller's registers after a write. TXFIFO is no register of its own: see `Env.absorb`. -/
def CtrlRegs.put (c : CtrlRegs) (v : Word) : WriteReg → CtrlRegs
  | .strpcl => { c with strpcl := v }
  | .clkrt => { c with clkrt := v }
  | .spi => { c with spi := v }
  | .cmdat => { c with cmdat := v }
  | .resto => { c with resto := v }
  | .blklen => { c with blklen := v }
  | .nob => { c with nob := v }
  | .prtbuf => { c with prtbuf := v }
  | .iMask => { c with iMask := v }
  | .cmd => { c with cmd := v }
  | .argh => { c with argh := v }
  | .argl => { c with argl := v }
  | .txfifo => c

/-- The environment after a write: a TXFIFO write appends one byte to the TX FIFO (R61, R86). -/
def Env.absorb (e : Env) (v : Word) : WriteReg → Env
  | .txfifo => { e with tx := e.tx ++ [lowByte v] }
  | .strpcl | .clkrt | .spi | .cmdat | .resto | .blklen | .nob | .prtbuf | .iMask | .cmd | .argh | .argl => e

/-- `RegWrite(r, v)` (R12). -/
def regWrite (r : WriteReg) (v : Word) (s : State) : State :=
  log (.write r.offset v) ((s.setCtrl (s.ctrl.put v r)).setEnv (s.env.absorb v r))

/-- The bus rate the controller gives the divider code last written (U4), where it gives one. -/
def State.busRate (s : State) : Option Nat := Config.clkrtDecode s.ctrl.clkrt

/-! ### Buffer accesses and delay -/

/-- The value `MemRead(addr, 1)` returns (R12). -/
def memValue (addr : Word) (s : State) : Byte := s.mem.read addr.toNat

/-- The state after `MemRead(addr, 1)`. -/
def afterMemRead (addr : Word) (s : State) : State := log (.memRead addr (memValue addr s)) s

/-- `MemWrite(addr, 1, v)` (R12). -/
def memWrite (addr : Word) (v : Byte) (s : State) : State :=
  log (.memWrite addr v) (s.setMem (s.mem.write addr.toNat v))

/-- `Delay(POLL_DELAY_US)`: an event with no bus activity and no time (R440). -/
def delay (s : State) : State := log .delay s

/-! ### Sequencing (R41, R292) -/

/-- `goto l`. -/
def goto (l : Label) (s : State) : State := s.setCtl { s.ctl with seq := l }

/-- Call the procedure whose first label is `target`; `back` is the step after the call. -/
def call (target back : Label) (s : State) : State := s.setCtl { s.ctl with seq := target, stk := back :: s.ctl.stk }

/-- Call AWAIT with its operands (R150). -/
def callAwait (mask : Word) (pol : Polarity) (site : Site) (back : Label) (s : State) : State :=
  call (.await (.a0 mask pol site)) back s

/-- The completion step (R387): the record is written, `SEQ` is IDLE, `STK` empty and `BUSY` 0. `CRC_SUPP`, `INST` and
`RESP` keep what the operation left (R387). So does every other register of the block, `REM` and `CUR` after an abort
included: what they hold then is unspecified (R53, U3, U17), and that each keeps its last written value is the model's
DESIGN CHOICE, unsafe for a claim about them (log 32). -/
def complete (result : Result) (site : Option Site) (s : State) : State :=
  (s.setDone { s.done with result := result, site := site }).setCtl { seq := .idle, stk := [], busy := false }

/-- `return Ok`: resume the caller at the step after the call, or complete the operation (R292, R387; log 10). -/
def ret (s : State) : State :=
  match s.ctl.stk with
  | [] => complete .ok none s
  | back :: stk => s.setCtl { s.ctl with seq := back, stk := stk }

/-- Does the caller that resumes at this label discard an error? Only SET_RATE's stop does, which resumes at SR6
(R292, R327); every other caller propagates it (R13). -/
def discards (back : Label) : Bool := back == .setRate .sr6

/-- The caller an error reaches, with the call stack left then; none when it reaches the outermost procedure. -/
def catcher : List Label → Option (Label × List Label)
  | [] => none
  | back :: stk => if discards back then some (back, stk) else catcher stk

/-- `raise e`: end the procedure and each caller that propagates it; at the outermost one, complete the operation with
the error (R12, R13, R292, R387; log 10). -/
def raise (e : Err) (s : State) : State :=
  match catcher s.ctl.stk with
  | none => complete e.result e.site s
  | some (back, stk) => s.setCtl { s.ctl with seq := back, stk := stk }

/-! ### Acceptance and reset -/

/-- Acceptance of a request with word `w` (R110): the request is latched (R43; log 27), `CRC_SUPP` cleared (R50; log 26),
`BUSY` set, and the operation starts at its first label. -/
def accept (w : Word) (start : Label) (s : State) : State :=
  ((s.setRq { req := w, arg := s.port.arg, blocks := s.port.blocks, blksize := s.port.blksize, buf := s.port.buf,
              hz := s.port.hz }).setDone { s.done with crcSupp := false }).setCtl { seq := start, stk := [], busy := true }

/-- Reset (R420, R421): the block's own registers at their reset values, an operation in progress abandoned with no
transaction and no completion. What is not the block's stays: port, host, controller, environment, buffer, trace
(log 2). -/
def blockReset (s : State) : State :=
  { State.reset with port := s.port, host := s.host, ctrl := s.ctrl, env := s.env, mem := s.mem, trace := s.trace }

/-- Does the block own the buffer byte at `addr` (R94)? From acceptance to completion of a data EXECUTE. -/
def State.owns (s : State) (addr : Word) : Bool :=
  s.ctl.busy && fieldOp s.rq.req == 0b00 && s.data && s.rq.covers addr

end Sys2Proof.Machine
end

