-- ==== Sys2Proof/Machine/Poll.lean ====
section
/-! DEFINITION. The bounded poll AWAIT (spec/40_bounded_poll.md R150 to R153), one arm per label. -/

namespace Sys2Proof.Machine

/-- `SNAP <- RegRead(STAT)`: the one way the block reads status (R46). -/
def readStat (s : State) : State := (afterRead .stat s).setSnap (readValue .stat s)

/-- `PCNT <- PCNT + 1` (R150 A1). -/
def countRead (s : State) : State := s.setPoll { s.poll with pcnt := s.poll.pcnt + 1 }

/-- One step of AWAIT (R150). -/
def awaitStep (s : State) : AwaitLabel → State
  | .a0 mask pol site => goto (.await .a1) (s.setPoll { pcnt := 0, pmask := mask, ppol := pol, psite := site })
  | .a1 => goto (.await .a2) (countRead (readStat s))
  | .a2 => if met s.snap s.poll.pmask s.poll.ppol then ret s else goto (.await .a3) s
  | .a3 => if s.poll.pcnt.toNat = Config.pollMax then raise (.timeout s.poll.psite) s else goto (.await .a4) s
  | .a4 => goto (.await .a1) (delay s)

end Sys2Proof.Machine
end

