-- ==== Sys2Proof/Machine/Clock.lean ====
section
/-! DEFINITION. The clock sequencer: STOP_CLOCK and START_CLOCK (spec/41_clock_sequencer.md R170, R172). -/

namespace Sys2Proof.Machine

/-- One step of STOP_CLOCK (R170). -/
def stopClockStep (s : State) : StopClockLabel → State
  | .s0 => goto (.stopClock .s1) (readStat s)
  | .s1 => if bitSet s.snap bitClkEn then goto (.stopClock .s2) s else ret s
  | .s2 => goto (.stopClock .s3) (regWrite .strpcl Config.strpclStop s)
  | .s3 => callAwait (bitMask bitClkEn) .clear .clkStop (.stopClock .s4) s
  | .s4 => ret s

/-- One step of START_CLOCK (R172). -/
def startClockStep (s : State) : StartClockLabel → State
  | .t0 => goto (.startClock .t1) (regWrite .strpcl Config.strpclStart s)
  | .t1 => callAwait (bitMask bitClkEn) .set .clkStart (.startClock .t2) s
  | .t2 => ret s

end Sys2Proof.Machine
end

