-- ==== Sys2Proof/Machine/ClockRate.lean ====
section
/-! DEFINITION. The clock-rate translator SET_RATE (spec/46_clock_rate.md R320 to R323, R327). -/

namespace Sys2Proof.Machine

/-- One step of SET_RATE (R320). STOP_CLOCK's result is discarded: its error resumes at SR6 (R327). -/
def setRateStep (s : State) : SetRateLabel → State
  | .sr0 => goto (.setRate .sr1) (s.setDone { s.done with crcSupp := false })
  | .sr1 => if s.rq.hz = 0 then call (.stopClock .s0) (.setRate .sr6) s else goto (.setRate .sr2) s
  | .sr2 =>
    if s.rq.hz = Config.fastRateHz then goto (.setRate .sr6) (regWrite .clkrt Config.fastRateCode s)
    else goto (.setRate .sr3) s
  | .sr3 => goto (.setRate .sr4) (s.setRate { s.rate with ratio := evenRatio s.rq.hz })
  | .sr4 => goto (.setRate .sr5) (s.setRate (halvings s.rate.ratio))
  | .sr5 => goto (.setRate .sr6) (regWrite .clkrt s.rate.div s)
  | .sr6 => ret s

end Sys2Proof.Machine
end

