-- ==== Sys2Proof/Machine/DataPump.lean ====
section
/-! DEFINITION. The data transfer engine: READ_PUMP and WRITE_PUMP (spec/44_data_pump.md R240 to R251). The loops have
no bound (R248). -/

namespace Sys2Proof.Machine

/-- `REM <- BLOCKS * BLKSIZE; CUR <- BUF` (P0, W0; R240). -/
def startPump (s : State) : State :=
  s.setPump { s.pump with rem := transferLength s.rq.blocks s.rq.blksize, cur := s.rq.buf }

/-- `CHUNK <- min(REM, FIFO_DEPTH); J <- 0` (P3, W3; R243). -/
def startChunk (s : State) : State :=
  s.setPump { s.pump with chunk := chunkSize s.pump.rem, j := 0 }

/-- `CUR <- CUR + 1; J <- J + 1` (P4, W4; R95). -/
def advanceByte (s : State) : State :=
  s.setPump { s.pump with cur := s.pump.cur + 1, j := s.pump.j + 1 }

/-- `REM <- REM - CHUNK` (P5, W6). -/
def endChunk (s : State) : State :=
  s.setPump { s.pump with rem := s.pump.rem - s.pump.chunk }

/-- `v <- RegRead(RXFIFO)` (P4). -/
def readRxfifo (s : State) : State :=
  (afterRead .rxfifo s).setPump { s.pump with v := readValue .rxfifo s }

/-- `b <- MemRead(CUR, 1)` (W4). -/
def fetchByte (s : State) : State :=
  (afterMemRead s.pump.cur s).setPump { s.pump with b := memValue s.pump.cur s }

/-- The partial-buffer signal after a chunk shorter than the FIFO (W5; R244). -/
def signalPartial (s : State) : State :=
  if s.pump.chunk < Config.fifoDepth then regWrite .prtbuf Config.prtbufPartial s else s

/-- One step of READ_PUMP (R241). -/
def readPumpStep (s : State) : ReadPumpLabel → State
  | .p0 => goto (.readPump .p1) (startPump s)
  | .p1 => if s.pump.rem = 0 then goto (.readPump .p8) s else goto (.readPump .p2) s
  | .p2 => goto (.readPump .p3) (readStat s)
  | .p3 => if bitSet s.snap bitRxrdy then goto (.readPump .p4) (startChunk s) else goto (.readPump .p6) s
  | .p4 => if s.pump.j < s.pump.chunk then goto (.readPump .p4Store) (readRxfifo s) else goto (.readPump .p5) s
  | .p4Store => goto (.readPump .p4) (advanceByte (memWrite s.pump.cur (lowByte s.pump.v) s))
  | .p5 => goto (.readPump .p6) (endChunk s)
  | .p6 => if hasError s.snap then raise .transferIoError s else goto (.readPump .p7) s
  | .p7 => goto (.readPump .p1) s
  | .p8 => callAwait (bitMask bitDataTranDone) .set .dataDone (.readPump .p9) s
  | .p9 => ret s

/-- One step of WRITE_PUMP (R242). -/
def writePumpStep (s : State) : WritePumpLabel → State
  | .w0 => goto (.writePump .w1) (startPump s)
  | .w1 => if s.pump.rem = 0 then goto (.writePump .w9) s else goto (.writePump .w2) s
  | .w2 => goto (.writePump .w3) (readStat s)
  | .w3 => if bitSet s.snap bitTxrdy then goto (.writePump .w4) (startChunk s) else goto (.writePump .w7) s
  | .w4 => if s.pump.j < s.pump.chunk then goto (.writePump .w4Send) (fetchByte s) else goto (.writePump .w5) s
  | .w4Send => goto (.writePump .w4) (advanceByte (regWrite .txfifo (s.pump.b.setWidth 32) s))
  | .w5 => goto (.writePump .w6) (signalPartial s)
  | .w6 => goto (.writePump .w7) (endChunk s)
  | .w7 => if hasError s.snap then raise .transferIoError s else goto (.writePump .w8) s
  | .w8 => goto (.writePump .w1) s
  | .w9 => callAwait (bitMask bitDataTranDone) .set .dataDone (.writePump .w10) s
  | .w10 => callAwait (bitMask bitPrgDone) .set .prgDone (.writePump .w11) s
  | .w11 => ret s

end Sys2Proof.Machine
end

