-- ==== Sys2Proof/Machine/Issue.lean ====
section
/-! DEFINITION. The command issuer ISSUE (spec/42_command_issuer.md R190 to R192). -/

namespace Sys2Proof.Machine

/-- One step of ISSUE (R190). -/
def issueStep (s : State) : IssueLabel → State
  | .i0 => goto (.issue .i1) (s.setFlags (s.flags ||| (rspFmt s.rtype).setWidth 32))
  | .i1 => goto (.issue .i2) (s.setFlags (orWhen s.busyf s.flags flagBusy))
  | .i2 => goto (.issue .i3) (regWrite .cmd (s.cmdIdx.setWidth 32) s)
  | .i3 => goto (.issue .i4) (regWrite .argh (argHigh s.rq.arg) s)
  | .i4 => goto (.issue .i5) (regWrite .argl (argLow s.rq.arg) s)
  | .i5 => goto (.issue .i6) (regWrite .cmdat s.flags s)
  | .i6 => call (.startClock .t0) (.issue .i7) s
  | .i7 => ret s

end Sys2Proof.Machine
end

