-- ==== Sys2Proof/Machine/Response.lean ====
section
/-! DEFINITION. The response decoder DECODE (spec/43_response_decoder.md R210 to R217). -/

namespace Sys2Proof.Machine

/-- `RegRead(RES)[15:0]` into RA (DC2). -/
def readRa (s : State) : State :=
  (afterRead .res s).setAsm { s.asm with ra := lowHalf (readValue .res s) }

/-- `RegRead(RES)[15:0]` into RB (DC4). -/
def readRb (s : State) : State :=
  (afterRead .res s).setAsm { s.asm with rb := lowHalf (readValue .res s) }

/-- `RegRead(RES)[15:0]` into RC (DC5). -/
def readRc (s : State) : State :=
  (afterRead .res s).setAsm { s.asm with rc := lowHalf (readValue .res s) }

/-- `RESP[RI] <- {RA[7:0], RB[15:0], RC[15:8]}` (DC6). -/
def assemble (s : State) : State :=
  s.setResp (s.resp.put s.asm.ri (responseWord s.asm.ra s.asm.rb s.asm.rc))

/-- `RTYPE = long and RESP[0][31] = 1`: the condition of the CRC-suppression branch (R216, R217). -/
def suppresses (s : State) : Bool := s.rtype == .long && bitSet s.resp.w0 31

/-- One step of DECODE (R210). The CRC-suppression branch is DC10 (R216). -/
def decodeStep (s : State) : DecodeLabel → State
  | .dc0 => goto (.decode .dc1) (readStat s)
  | .dc1 => if bitSet s.snap bitTimeOutResponse then raise (.timeout .respTimeout) s else goto (.decode .dc2) s
  | .dc2 => goto (.decode .dc3) (readRa s)
  | .dc3 => goto (.decode .dc4) (s.setAsm { s.asm with ri := 0 })
  | .dc4 => goto (.decode .dc5) (readRb s)
  | .dc5 => goto (.decode .dc6) (readRc s)
  | .dc6 => goto (.decode .dc7) (assemble s)
  | .dc7 => goto (.decode .dc8) (s.setAsm { s.asm with ra := s.asm.rc })
  | .dc8 =>
    if s.asm.ri < 3 then goto (.decode .dc4) (s.setAsm { s.asm with ri := s.asm.ri + 1 }) else goto (.decode .dc9) s
  | .dc9 => if bitSet s.snap bitResCrcErr && s.crc then goto (.decode .dc10) s else goto (.decode .dc12) s
  | .dc10 => if suppresses s then ret (s.setDone { s.done with crcSupp := true }) else goto (.decode .dc11) s
  | .dc11 => raise .responseCrcMismatch s
  | .dc12 => ret s

end Sys2Proof.Machine
end

