-- ==== Sys2Proof/Machine/HostAdapter.lean ====
section
/-! DEFINITION. The EXECUTE sequence shared by the three EXECUTE operations (spec/45_host_adapter.md R280 to R285). -/

namespace Sys2Proof.Machine

/-- The data part of step 2's flags: DATA_EN, and WRITE when `DIR = 1` (E2). -/
def dataFlags (s : State) : Word := orWhen s.dir (s.flags ||| flagDataEn) flagWrite

/-- The data phase of step 7: the pump of the declared direction (E7; R285). -/
def callPump (s : State) : State :=
  if s.dir then call (.writePump .w0) (.execute .e8) s else call (.readPump .p0) (.execute .e8) s

/-- One step of EXECUTE (R280). -/
def executeStep (s : State) : ExecuteLabel → State
  | .e0 => goto (.execute .e1) ((s.setDone { s.done with crcSupp := false }).setFlags 0)
  | .e1 => call (.stopClock .s0) (.execute .e2) s
  | .e2 =>
    if s.data then goto (.execute .e2Blklen) (regWrite .nob (s.rq.blocks.setWidth 32) s) else goto (.execute .e3) s
  | .e2Blklen => goto (.execute .e2Resto) (regWrite .blklen (s.rq.blksize.setWidth 32) s)
  | .e2Resto => goto (.execute .e3) ((regWrite .resto Config.restoMax s).setFlags (dataFlags s))
  | .e3 => goto (.execute .e4) (s.setFlags (orWhen s.w4 s.flags flagSd4dat))
  | .e4 => call (.issue .i0) (.execute .e5) s
  | .e5 => callAwait (bitMask bitEndCmdRes) .set .cmdEnd (.execute .e6) s
  | .e6 => call (.decode .dc0) (.execute .e7) s
  | .e7 => if s.data then callPump s else goto (.execute .e8) s
  | .e8 => ret s

end Sys2Proof.Machine
end

