-- ==== Sys2Proof/Machine/Open.lean ====
section
/-! DEFINITION. Initialisation: OPEN (spec/47_open.md R350 to R354). -/

namespace Sys2Proof.Machine

/-- The value of `alloc_draw` (R354): the oldest pending answer, else a free value (log 4). -/
def allocValue (s : State) : AllocDraw :=
  match s.env.alloc with
  | [] => Config.freeAlloc s.env.draws
  | a :: _ => a

/-- The environment after `alloc_draw` is drawn. -/
def Env.consumeAlloc (e : Env) : Env :=
  match e.alloc with
  | [] => { e with draws := e.draws + 1 }
  | _ :: rest => { e with alloc := rest }

/-- Draw `alloc_draw` for this OPEN; it is no bus transaction. -/
def drawAlloc (s : State) : State :=
  (s.setAlloc (allocValue s)).setEnv s.env.consumeAlloc

/-- The Host Instance OPEN returns (R352, R353). -/
def openInst : HostInst :=
  { caps := Config.hostCaps, voltages := Config.hostVoltages, fMin := Config.fMin, fMax := Config.fMax }

/-- What O0 does before its test: clear `CRC_SUPP` and draw `alloc_draw`. -/
def openEntry (s : State) : State := drawAlloc (s.setDone { s.done with crcSupp := false })

/-- One step of OPEN (R350). -/
def openHostStep (s : State) : OpenLabel → State
  | .o0 =>
    if allocValue s = .failAtEntry then raise .allocationFailure (openEntry s)
    else goto (.openHost .o1) (openEntry s)
  | .o1 => call (.stopClock .s0) (.openHost .o2) s
  | .o2 => goto (.openHost .o3) (regWrite .spi Config.spiDisableValue s)
  | .o3 => goto (.openHost .o4) (regWrite .resto Config.restoMax s)
  | .o4 => goto (.openHost .o5) (regWrite .iMask Config.iMaskOpenValue s)
  | .o5 => if s.alloc = .failAtExit then raise .allocationFailure s else goto (.openHost .o6) s
  | .o6 => ret (s.setDone { s.done with inst := openInst })

end Sys2Proof.Machine
end

