-- ==== Sys2Proof/Machine/Sequence.lean ====
section
/-! DEFINITION. One step of whatever procedure SEQ names (spec/10_state.md R41), which procedures each operation runs,
and how a request is served: accepted when the block is idle, carried one step on while it is the one in flight
(spec/30_encoding.md R110, R137). -/

namespace Sys2Proof.Machine

/-- The step at SEQ (R41), one label a step (log 6). At IDLE there is none. -/
def procStep (s : State) : State :=
  match s.ctl.seq with
  | .idle => s
  | .execute l => executeStep s l
  | .stopClock l => stopClockStep s l
  | .startClock l => startClockStep s l
  | .await l => awaitStep s l
  | .issue l => issueStep s l
  | .decode l => decodeStep s l
  | .readPump l => readPumpStep s l
  | .writePump l => writePumpStep s l
  | .setRate l => setRateStep s l
  | .openHost l => openHostStep s l

/-- The procedures EXEC runs: EXECUTE without E2's data-register writes, and what its steps 1 to 6 call (R280, R286). -/
def inExec : Label → Bool
  | .execute l =>
    match l with
    | .e2Blklen | .e2Resto => false
    | .e0 | .e1 | .e2 | .e3 | .e4 | .e5 | .e6 | .e7 | .e8 => true
  | .stopClock _ | .startClock _ | .await _ | .issue _ | .decode _ => true
  | .idle | .readPump _ | .writePump _ | .setRate _ | .openHost _ => false

/-- The procedures EXEC.RD runs: EXEC's and READ_PUMP (R287). -/
def inExecRd : Label → Bool
  | .execute _ | .stopClock _ | .startClock _ | .await _ | .issue _ | .decode _ | .readPump _ => true
  | .idle | .writePump _ | .setRate _ | .openHost _ => false

/-- The procedures EXEC.WR runs: EXEC's and WRITE_PUMP (R288). -/
def inExecWr : Label → Bool
  | .execute _ | .stopClock _ | .startClock _ | .await _ | .issue _ | .decode _ | .writePump _ => true
  | .idle | .readPump _ | .setRate _ | .openHost _ => false

/-- The procedures SETRATE runs: SET_RATE, STOP_CLOCK and its AWAIT (R320). -/
def inSetRate : Label → Bool
  | .setRate _ | .stopClock _ | .await _ => true
  | .idle | .execute _ | .startClock _ | .issue _ | .decode _ | .readPump _ | .writePump _ | .openHost _ => false

/-- The procedures OPEN runs: OPEN, STOP_CLOCK and its AWAIT (R350). -/
def inOpenHost : Label → Bool
  | .openHost _ | .stopClock _ | .await _ => true
  | .idle | .execute _ | .startClock _ | .issue _ | .decode _ | .readPump _ | .writePump _ | .setRate _ => false

/-- Serve the request with word `w`. While another request is in flight it is refused (R110; log 24); while it is itself in
flight, the step at SEQ is performed; when the block is idle it is accepted at `start`, unless its buffer range wraps
(R95). `runs` says which labels belong to it. -/
def serve (w : Word) (start : Label) (runs : Label → Bool) (fits : Bool) (s : State) :
    Host.Outcome State Fault Refusal :=
  if s.ctl.busy then
    if s.rq.req = w then
      if runs s.ctl.seq then .next (procStep s) else .fault .noStep
    else .refused .requestWhileBusy
  else if fits then .next (accept w start s)
  else .refused .bufferWrap

end Sys2Proof.Machine
end

