-- ==== Sys2Proof/Machine/Execute.lean ====
section
/-! DEFINITION. The meanings of EXEC, EXEC.RD and EXEC.WR (spec/45_host_adapter.md R286 to R288). A meaning is one step
of its request: acceptance when the block is idle, else the step at SEQ of the sequence R280, until the completion
step (R41, R387). -/

namespace Sys2Proof.Machine

/-- EXEC (R286): R280 with `DATA = 0`. -/
def execExec (cmd : BitVec 6) (rtype : RType) (crc busyf w4 : Bool) (s : State) : Host.Outcome State Fault Refusal :=
  serve (encode (.exec cmd rtype crc busyf w4)) (.execute .e0) inExec true s

/-- EXEC.RD (R287): R280 with `DATA = 1` and `DIR = 0`. -/
def execExecRd (cmd : BitVec 6) (rtype : RType) (crc busyf w4 : Bool) (s : State) :
    Host.Outcome State Fault Refusal :=
  serve (encode (.execRd cmd rtype crc busyf w4)) (.execute .e0) inExecRd s.port.bufferFits s

/-- EXEC.WR (R288): R280 with `DATA = 1` and `DIR = 1`. -/
def execExecWr (cmd : BitVec 6) (rtype : RType) (crc busyf w4 : Bool) (s : State) :
    Host.Outcome State Fault Refusal :=
  serve (encode (.execWr cmd rtype crc busyf w4)) (.execute .e0) inExecWr s.port.bufferFits s

end Sys2Proof.Machine
end

