-- ==== Sys2Proof/Machine/System.lean ====
section
/-! DEFINITION. The meanings of the system operations SETRATE and OPEN (spec/46_clock_rate.md R320, spec/47_open.md
R350, spec/60_exceptions.md R397), each one step of its request. -/

namespace Sys2Proof.Machine

/-- SETRATE (R320). -/
def execSetRate (s : State) : Host.Outcome State Fault Refusal :=
  serve (encode .setRate) (.setRate .sr0) inSetRate true s

/-- OPEN (R350). -/
def execOpenHost (s : State) : Host.Outcome State Fault Refusal :=
  serve (encode .openHost) (.openHost .o0) inOpenHost true s

end Sys2Proof.Machine
end

