-- ==== Sys2Proof/Machine/Dispatch.lean ====
section
/-! DEFINITION. One arm per constructor of `Instr` (spec/30_encoding.md R137). -/

namespace Sys2Proof.Machine

def exec (i : Instr) (s : State) : Host.Outcome State Fault Refusal :=
  match i with
  | .exec cmd rtype crc busyf w4 => Sys2Proof.Machine.execExec cmd rtype crc busyf w4 s
  | .execRd cmd rtype crc busyf w4 => Sys2Proof.Machine.execExecRd cmd rtype crc busyf w4 s
  | .execWr cmd rtype crc busyf w4 => Sys2Proof.Machine.execExecWr cmd rtype crc busyf w4 s
  | .setRate => Sys2Proof.Machine.execSetRate s
  | .openHost => Sys2Proof.Machine.execOpenHost s

end Sys2Proof.Machine
end

