-- ==== Sys2Proof/Machine/HostPort.lean ====
section
/-! DEFINITION. The host port and what a step of the whole machine is: the host's next move where it makes one, else a
step of the request in flight (spec/30_encoding.md R110, R137; spec/70_reset_and_hazards.md R420 to R423). -/

namespace Sys2Proof.Machine

/-- Decode a request word and run its operation, or refuse a reserved word (R115, R137). -/
def runWord (w : Word) (s : State) : Host.Outcome State Fault Refusal :=
  match decode w with
  | .ok i => exec i s
  | .error why => .refused (.reservedRequest why)

/-- The block's own step: the request in flight goes one step on; idle, the block waits (R420). -/
def advance (s : State) : Host.Outcome State Fault Refusal :=
  if s.ctl.busy then runWord s.rq.req s else .next s

/-- The host presents a request: it is on the port's lines while the block decodes it (R110). -/
def present (r : Request) (s : State) : Host.Outcome State Fault Refusal :=
  runWord r.req (s.setPort r.operands)

/-- The host writes a byte of buffer memory; a byte the block owns is refused (R94, R423; log 28). -/
def hostStore (addr : Word) (value : Byte) (s : State) : Host.Outcome State Fault Refusal :=
  if s.owns addr then .refused .ownedBuffer else .next (s.setMem (s.mem.write addr.toNat value))

/-- One step of the machine: the host's next move, or the block's own step. A waiting host lets the block run until
`BUSY = 0` (R423). -/
def machineStep (s : State) : Host.Outcome State Fault Refusal :=
  match s.host with
  | [] => advance s
  | .request r :: rest => if s.ctl.busy then advance s else present r (s.setHost rest)
  | .requestNow r :: rest => if s.ctl.busy then .refused .requestWhileBusy else present r (s.setHost rest)
  | .reset :: rest => .next (blockReset (s.setHost rest))
  | .store addr value :: rest => hostStore addr value (s.setHost rest)
  | .wait :: rest => advance (s.setHost rest)

/-- `s` with the block idle and a host that presents the request word `w`, its operands 0, as its next move. -/
def presentNext (s : State) (w : Word) : State :=
  (s.setCtl { seq := .idle, stk := [], busy := false }).setHost (.request { req := w, operands := .zero } :: s.host)

end Sys2Proof.Machine
end

