-- ==== Sys2Proof/Machine/Step.lean ====
section
/-! DEFINITION. The step of the machine (see `machineStep`), and the placing of a request word where the next step
takes it (log 25). -/

namespace Sys2Proof.Machine

/-- One step: a next state, a fault or a refusal. -/
def step (s : State) : Host.Outcome State Fault Refusal := machineStep s

/-- `s` with the request word `w` presented next (every row is one 32-bit word, R116, so `nbits` tells nothing). -/
def State.withFetchWord (s : State) (_nbits w : Nat) : State := presentNext s (BitVec.ofNat 32 w)

end Sys2Proof.Machine
end

