-- ==== Sys2Proof/Safety.lean ====
section
/-! DEFINITION. The terms claims are stated in: runs, the procedures of an operation, the invariants of the block
(spec/10_state.md R41, R42, R45, R47; spec/20_memory.md R82; spec/30_encoding.md R117), and what a trace counts
(spec/10_state.md R62, spec/40_bounded_poll.md R152). -/

namespace Sys2Proof

/-- The labels whose steps an operation runs (the `runs` of its meaning). -/
def Instr.runs : Instr → Machine.Label → Bool
  | .exec .. => Machine.inExec
  | .execRd .. => Machine.inExecRd
  | .execWr .. => Machine.inExecWr
  | .setRate => Machine.inSetRate
  | .openHost => Machine.inOpenHost

/-- The label an operation starts at. -/
def Instr.start : Instr → Machine.Label
  | .exec .. => .execute .e0
  | .execRd .. => .execute .e0
  | .execWr .. => .execute .e0
  | .setRate => .setRate .sr0
  | .openHost => .openHost .o0

namespace Machine

/-- `k` steps of the machine. -/
abbrev run (k : Nat) (s : State) : Host.Outcome State Fault Refusal := Host.Core.run Sys2Proof.core k s

/-! ### Sequencing -/

/-- The procedures that a host operation itself is (R280, R320, R350). -/
def Label.outermost : Label → Bool
  | .execute _ | .setRate _ | .openHost _ => true
  | .idle | .stopClock _ | .startClock _ | .await _ | .issue _ | .decode _ | .readPump _ | .writePump _ => false

/-- Is `back` a step after a call of the procedure that `callee` is a label of (R41, R155, R170, R172, R190, R280)? -/
def Label.returnsTo (callee back : Label) : Bool :=
  match callee with
  | .stopClock _ => back == .execute .e2 || back == .setRate .sr6 || back == .openHost .o2
  | .issue _ => back == .execute .e5
  | .startClock _ => back == .issue .i7
  | .decode _ => back == .execute .e7
  | .readPump _ | .writePump _ => back == .execute .e8
  | .await _ =>
    back == .execute .e6 || back == .stopClock .s4 || back == .startClock .t2 || back == .readPump .p9 ||
      back == .writePump .w10 || back == .writePump .w11
  | .idle | .execute _ | .setRate _ | .openHost _ => false

/-- The call stack is one the fixed pattern of calls builds (R41). -/
def nested (l : Label) : List Label → Bool
  | [] => l.outermost
  | back :: stk => l.returnsTo back && nested back stk

/-- The latched word decodes to an operation that runs the current label and every return label. -/
def ownLabels (s : State) : Bool :=
  match decode s.rq.req with
  | .ok i => i.runs s.ctl.seq && s.ctl.stk.all i.runs
  | .error _ => false

/-- The sequencing invariant (R41, R42): idle with an empty stack, or busy at a label of the latched operation with a
stack that its calls build. -/
def seqInv (s : State) : Bool :=
  if s.ctl.busy then nested s.ctl.seq s.ctl.stk && ownLabels s else s.ctl.seq == .idle && s.ctl.stk.isEmpty

/-- The block is serving a request, in order, and the host makes no move. -/
structure Serving (s : State) : Prop where
  busy : s.ctl.busy = true
  quiet : s.host = []
  inv : seqInv s = true

/-! ### Invariants of the registers -/

/-- `PCNT` counts the reads of the poll in progress, 0 to `POLL_MAX` (R45, R152). -/
def pollInv (s : State) : Bool :=
  match s.ctl.seq with
  | .await .a1 => decide (s.poll.pcnt.toNat < Config.pollMax)
  | .await .a2 | .await .a3 => decide (1 ≤ s.poll.pcnt.toNat ∧ s.poll.pcnt.toNat ≤ Config.pollMax)
  | .await .a4 => decide (1 ≤ s.poll.pcnt.toNat ∧ s.poll.pcnt.toNat < Config.pollMax)
  | .await (.a0 ..) | .idle | .execute _ | .stopClock _ | .startClock _ | .issue _ | .decode _ | .readPump _
  | .writePump _ | .setRate _ | .openHost _ => true

/-- `CHUNK` is at most `FIFO_DEPTH` (R9, R47). -/
def chunkInv (s : State) : Bool := decide (s.pump.chunk ≤ Config.fifoDepth)

/-- `SITE = NONE` exactly when `RESULT` is not Timeout (R117). -/
def siteInv (s : State) : Bool := (s.done.site == none) == (s.done.result != .timeout)

/-- The latched request's buffer range ends at or below `2^32` if it is a data request (R82). -/
def rangeFits (s : State) : Bool :=
  !(fieldOp s.rq.req == 0b00 && s.data) ||
    decide (s.rq.buf.toNat + s.rq.blocks.toNat * s.rq.blksize.toNat ≤ 2 ^ 32)

/-- `N` of the latched request (R240). -/
def State.length (s : State) : Word := transferLength s.rq.blocks s.rq.blksize

/-- Between chunks: `N - REM` bytes are moved and `CUR = BUF + (N - REM)` (R95, R249). -/
def betweenChunks (s : State) : Bool :=
  decide (s.pump.rem ≤ s.length) && s.pump.cur == s.rq.buf + (s.length - s.pump.rem)

/-- Within a chunk: `N - REM + J` bytes are moved, `CUR` follows, and the chunk is part of what remains. -/
def withinChunk (s : State) : Bool :=
  decide (s.pump.rem ≤ s.length) && decide (s.pump.chunk ≤ s.pump.rem) && decide (s.pump.j ≤ s.pump.chunk) &&
    s.pump.cur == s.rq.buf + (s.length - s.pump.rem) + s.pump.j

/-- The buffer invariant (R82, R95, R249): where the cursor of a pump in progress stands. -/
def bufferInv (s : State) : Bool :=
  (!s.ctl.busy || rangeFits s) &&
    match s.ctl.seq with
    | .readPump l =>
      match l with
      | .p0 | .p8 | .p9 => true
      | .p1 | .p2 | .p3 | .p6 | .p7 => betweenChunks s
      | .p4 => withinChunk s
      | .p4Store => withinChunk s && decide (s.pump.j < s.pump.chunk)
      | .p5 => withinChunk s && s.pump.j == s.pump.chunk
    | .writePump l =>
      match l with
      | .w0 | .w9 | .w10 | .w11 => true
      | .w1 | .w2 | .w3 | .w7 | .w8 => betweenChunks s
      | .w4 => withinChunk s
      | .w4Send => withinChunk s && decide (s.pump.j < s.pump.chunk)
      | .w5 | .w6 => withinChunk s && s.pump.j == s.pump.chunk
    | .idle | .execute _ | .stopClock _ | .startClock _ | .await _ | .issue _ | .decode _ | .setRate _
    | .openHost _ => true

/-! ### What a trace says -/

/-- The events of a bounded poll whose STAT reads answered these values, in time order: a delay between two reads, none
before the first or after the last (R152, R153). -/
def pollEvents : List Word → List Event
  | [] => []
  | [v] => [.read ReadReg.stat.offset v]
  | v :: w :: rest => .read ReadReg.stat.offset v :: .delay :: pollEvents (w :: rest)

/-- The answers of a poll that returns Ok: fewer than `POLL_MAX` that fail the condition, then one that meets it
(R152). -/
def PollOk (mask : Word) (pol : Polarity) (answers : List Word) : Prop :=
  ∃ fails v, answers = fails ++ [v] ∧ fails.length < Config.pollMax ∧ (∀ x ∈ fails, met x mask pol = false) ∧
    met v mask pol = true

/-- The answers of a poll that times out: `POLL_MAX` that fail the condition (R152). -/
def PollFails (mask : Word) (pol : Polarity) (answers : List Word) : Prop :=
  answers.length = Config.pollMax ∧ ∀ x ∈ answers, met x mask pol = false

/-- The STAT answers of a STOP_CLOCK that succeeds (R170): one with CLK_EN clear, or one with it set and those of a poll
for it to clear. -/
def StopOk : List Word → Prop
  | [] => False
  | v :: polled => if bitSet v bitClkEn then PollOk (bitMask bitClkEn) .clear polled else polled = []

/-- The bus events of a STOP_CLOCK whose STAT reads answered these values, in time order (R170). -/
def stopEvents : List Word → List Event
  | [] => []
  | [v] => [.read ReadReg.stat.offset v]
  | v :: w :: rest =>
    .read ReadReg.stat.offset v :: .write WriteReg.strpcl.offset Config.strpclStop :: pollEvents (w :: rest)

/-- The STAT answers of a pump loop that moves `rem` bytes to the end (R241, R242): no error bit in any, the loop ends
with the first answer that leaves nothing to move, and an answer without the ready bit moves nothing. -/
def pumpOk (ready : Nat) : Nat → List Word → Bool
  | rem, [] => rem == 0
  | rem, v :: rest =>
    rem != 0 && !hasError v &&
      pumpOk ready (if bitSet v ready then rem - min rem Config.fifoDepth.toNat else rem) rest

/-- The events of a chunk of READ_PUMP that reads these values, in time order: each RXFIFO read is followed by the store
of its low byte (R241, R249). -/
def readChunkEvents : Word → List Word → List Event
  | _, [] => []
  | cur, v :: vs => .read 0x40 v :: .memWrite cur (v.extractLsb' 0 8) :: readChunkEvents (cur + 1) vs

/-- The events of a chunk of WRITE_PUMP that sends these bytes, in time order: each buffer read is followed by the TXFIFO
write of its byte, zero-extended (R242, R249). -/
def writeChunkEvents : Word → List Byte → List Event
  | _, [] => []
  | cur, b :: bs => .memRead cur b :: .write 0x44 (b.setWidth 32) :: writeChunkEvents (cur + 1) bs

/-- The events of READ_PUMP's loop from a cursor, with the data still to be read and the STAT answers, in time order: one
STAT read an iteration, then a chunk of at most 32 bytes when RXRDY is set (R241, R243). -/
def readLoopEvents : Word → List Word → List Word → List Event
  | _, _, [] => []
  | cur, data, v :: stat =>
    .read 0x04 v ::
      (if v.getLsbD 7 then
        readChunkEvents cur (data.take 32) ++
          readLoopEvents (cur + BitVec.ofNat 32 (data.take 32).length) (data.drop 32) stat
      else readLoopEvents cur data stat)

/-- The events of WRITE_PUMP's loop in the same way, with the partial-buffer signal after a chunk of fewer than 32 bytes
(R242, R243, R244). -/
def writeLoopEvents : Word → List Byte → List Word → List Event
  | _, _, [] => []
  | cur, data, v :: stat =>
    .read 0x04 v ::
      (if v.getLsbD 6 then
        writeChunkEvents cur (data.take 32) ++ (if data.length < 32 then [.write 0x24 0x1] else []) ++
          writeLoopEvents (cur + BitVec.ofNat 32 (data.take 32).length) (data.drop 32) stat
      else writeLoopEvents cur data stat)

/-- The bytes of a memory at `n` addresses from `a`. -/
def Memory.bytes (m : Memory) (a n : Nat) : List Byte := (List.range n).map fun k => m.read (a + k)

/-- Is the event a bus transaction (R62)? -/
def Event.isBus : Event → Bool
  | .read .. | .write .. => true
  | .delay | .memRead .. | .memWrite .. => false

/-- The least time in microseconds that the delays of a trace take (R157, R440). -/
def leastMicroseconds (trace : List Event) : Nat := trace.count .delay * Config.pollDelayUs

end Machine

end Sys2Proof
end

