-- ==== Sys2Proof/Certificates/Slice0/Obligations.lean ====
section
/-! DEFINITION. The statements for the provers: encoding, reset and the host port, the internal procedures, the five
operations from acceptance to completion, invariants of every step, and frames. -/

open Sys2Proof Sys2Proof.Machine

/-! ### Encoding (spec/30_encoding.md) -/

/-- Words of table 2.1 of spec/95_test_vectors.md, written out from R112, decode to what the table says. -/
def Obligations.DecodeReadsSpecWords : Prop :=
  decodeTableWord 32 0x00000B08 = some (.exec 2 .long true false false) ∧
  decodeTableWord 32 0x000004A4 = some (.exec 41 .r3 false false false) ∧
  decodeTableWord 32 0x00001A1C = some (.exec 7 .shortBusy true true false) ∧
  decodeTableWord 32 0x000001FC = some (.exec 63 .short false false false) ∧
  decodeTableWord 32 0x0000A944 = some (.execRd 17 .short true false true) ∧
  decodeTableWord 32 0x00003000 = some (.execRd 0 .none false true false) ∧
  decodeTableWord 32 0x00006960 = some (.execWr 24 .short true false false) ∧
  decodeTableWord 32 0x00000001 = some .setRate ∧
  decodeTableWord 32 0x00000002 = some .openHost

/-- R115, whole: which words are reserved; a model refuses them at the host port; and a data request whose buffer range
wraps is refused in the same way. -/
def Obligations.ReservedRequestsAreRefused : Prop :=
  (∀ w : Word,
    (∃ why, decode w = .error why) ↔
      w.extractLsb' 0 2 = 0b11 ∨
      ((w.extractLsb' 0 2 = 0b01 ∨ w.extractLsb' 0 2 = 0b10) ∧ w.extractLsb' 2 30 ≠ 0) ∨
      (w.extractLsb' 0 2 = 0b00 ∧ w.extractLsb' 16 16 ≠ 0) ∨
      (w.extractLsb' 0 2 = 0b00 ∧
        (w.extractLsb' 8 3 = 0b101 ∨ w.extractLsb' 8 3 = 0b110 ∨ w.extractLsb' 8 3 = 0b111)) ∨
      (w.extractLsb' 0 2 = 0b00 ∧ w.getLsbD 13 = false ∧ w.getLsbD 14 = true)) ∧
  (∀ (s : State) (r : Request) (rest : List HostMove) (why : Reserved),
    s.ctl.busy = false → (s.host = .request r :: rest ∨ s.host = .requestNow r :: rest) →
      decode r.req = .error why → step s = .refused (.reservedRequest why)) ∧
  (∀ (s : State) (i : Instr), s.ctl.busy = false → i.hasData = true →
    s.port.buf.toNat + s.port.blocks.toNat * s.port.blksize.toNat > 2 ^ 32 → exec i s = .refused .bufferWrap)

/-- R137: the operation that `OP`, `DATA` and `DIR` select, with the fields of R112. -/
def Obligations.DecodeSelectsOperation : Prop :=
  ∀ (w : Word) (i : Instr), decode w = .ok i →
    (w.extractLsb' 0 2 = 0b01 ∧ i = .setRate) ∨
    (w.extractLsb' 0 2 = 0b10 ∧ i = .openHost) ∨
    (w.extractLsb' 0 2 = 0b00 ∧ ∃ rt : RType, rt.code = w.extractLsb' 8 3 ∧
      ((w.getLsbD 13 = false ∧
          i = .exec (w.extractLsb' 2 6) rt (w.getLsbD 11) (w.getLsbD 12) (w.getLsbD 15)) ∨
       (w.getLsbD 13 = true ∧ w.getLsbD 14 = false ∧
          i = .execRd (w.extractLsb' 2 6) rt (w.getLsbD 11) (w.getLsbD 12) (w.getLsbD 15)) ∨
       (w.getLsbD 13 = true ∧ w.getLsbD 14 = true ∧
          i = .execWr (w.extractLsb' 2 6) rt (w.getLsbD 11) (w.getLsbD 12) (w.getLsbD 15))))

/-- Every operation, with every field at every value, is what its own word decodes to (R112 to R114). -/
def Obligations.DecodeOfEncode : Prop :=
  ∀ i : Instr, decode (encode i) = .ok i

/-! ### Reset and the host port -/

/-- R420: after reset, and after the reset input in any state, the block is IDLE with an empty stack and `BUSY` 0, and
reset itself makes no bus transaction and no buffer access. -/
def Obligations.ResetLeavesIdle : Prop :=
  State.reset.ctl = { seq := .idle, stk := [], busy := false } ∧
  State.reset.trace = [] ∧
  (∀ (s : State) (rest : List HostMove), s.host = .reset :: rest →
    ∃ t, step s = .next t ∧ t.ctl = { seq := .idle, stk := [], busy := false } ∧ t.trace = s.trace ∧
      t.mem = s.mem ∧ t.ctrl = s.ctrl ∧ t.env = s.env ∧ t.port = s.port ∧ t.host = rest)

/-- The invariants hold at reset. The values behind `siteInv`, `chunkInv` and the memory are the model's choices
(log 1, log 13). -/
def Obligations.ResetMeetsInvariants : Prop :=
  seqInv State.reset = true ∧ pollInv State.reset = true ∧ chunkInv State.reset = true ∧
  siteInv State.reset = true ∧ bufferInv State.reset = true ∧ State.reset.mem.wf = true

/-- What the machine runs: a request presented to an idle block, decoded, with its operands on the port; a busy block's
latched request, also while the host waits. Nothing is added around `exec` but the host's move being used up. -/
def Obligations.StepRunsDecodedRequest : Prop :=
  ∀ (s : State) (i : Instr),
    (∀ (r : Request) (rest : List HostMove), s.ctl.busy = false →
      (s.host = .request r :: rest ∨ s.host = .requestNow r :: rest) → decode r.req = .ok i →
        step s = exec i ((s.setHost rest).setPort r.operands)) ∧
    (s.ctl.busy = true → decode s.rq.req = .ok i →
      (s.host = [] → step s = exec i s) ∧
      (∀ (r : Request) (rest : List HostMove), s.host = .request r :: rest → step s = exec i s) ∧
      (∀ rest : List HostMove, s.host = .wait :: rest → step s = exec i (s.setHost rest)))

/-- A request presented while `BUSY = 1` is refused, at the port and by every meaning (R110, U6); a host that waits is
not; an idle block with nothing presented waits. -/
def Obligations.BusyBlockRefusesRequests : Prop :=
  (∀ (s : State) (r : Request) (rest : List HostMove), s.ctl.busy = true → s.host = .requestNow r :: rest →
    step s = .refused .requestWhileBusy) ∧
  (∀ (s : State) (i : Instr), s.ctl.busy = true → s.rq.req ≠ encode i → exec i s = .refused .requestWhileBusy) ∧
  (∀ s : State, s.ctl.busy = false → s.host = [] → step s = .next s)

/-- From acceptance to completion of a data request the host may not write a byte of its buffer; every other byte it
may (R94), and its store changes that byte and uses up the move, and changes nothing else. -/
def Obligations.HostWritesOutsideOwnedBuffer : Prop :=
  ∀ (s : State) (a : Word) (v : Byte) (rest : List HostMove), s.host = .store a v :: rest →
    (s.ctl.busy = true → fieldOp s.rq.req = 0b00 → s.data = true → s.rq.buf.toNat ≤ a.toNat →
      a.toNat < s.rq.buf.toNat + s.rq.blocks.toNat * s.rq.blksize.toNat → step s = .refused .ownedBuffer) ∧
    ((s.ctl.busy = false ∨ fieldOp s.rq.req ≠ 0b00 ∨ s.data = false ∨ a.toNat < s.rq.buf.toNat ∨
        s.rq.buf.toNat + s.rq.blocks.toNat * s.rq.blksize.toNat ≤ a.toNat) →
      step s = .next ((s.setHost rest).setMem (s.mem.write a.toNat v)))

/-- R43: a request's registers are copied from the port at acceptance, and stay constant until it completes. The
acceptance also sets `BUSY`, clears `CRC_SUPP` and starts the operation that `OP` selects (R110, R50), for every
operation whose operands are admitted. -/
def Obligations.AcceptanceLatchesRequest : Prop :=
  (∀ (s : State) (i : Instr), s.ctl.busy = false → i.wellFormed s.port = true →
    ∃ t, exec i s = .next t ∧
      t.rq = { req := encode i, arg := s.port.arg, blocks := s.port.blocks, blksize := s.port.blksize,
               buf := s.port.buf, hz := s.port.hz } ∧
      t.ctl = { seq := i.start, stk := [], busy := true } ∧
      t.done = { s.done with crcSupp := false } ∧ t.resp = s.resp ∧ t.mem = s.mem ∧ t.trace = s.trace ∧
      t.env = s.env ∧ t.ctrl = s.ctrl) ∧
  (∀ s t : State, s.ctl.busy = true → (∀ rest, s.host ≠ .reset :: rest) → step s = .next t → t.rq = s.rq)

/-! ### The internal procedures -/

/-- R152 and R153: an AWAIT returns Ok after its first read that meets the condition, with a delay between two reads
and none elsewhere; after `POLL_MAX` reads that fail it, it raises Timeout with its site. -/
def Obligations.AwaitCountLaw : Prop :=
  ∀ (s : State) (mask : Word) (pol : Polarity) (site : Site) (back : Label) (stk : List Label)
    (answers rest : List Word),
    Serving s → s.ctl.seq = .await (.a0 mask pol site) → s.ctl.stk = back :: stk → s.env.stat = answers ++ rest →
    (PollOk mask pol answers →
      ∃ k t, run k s = .next t ∧ t.ctl = { seq := back, stk := stk, busy := true } ∧
        t.trace = (pollEvents answers).reverse ++ s.trace ∧ t.env = { s.env with stat := rest } ∧
        t.done = s.done ∧ t.ctrl = s.ctrl ∧ t.mem = s.mem ∧ t.resp = s.resp ∧ t.flags = s.flags ∧ t.pump = s.pump) ∧
    (PollFails mask pol answers →
      ∃ k t, run k s = .next t ∧ t.trace = (pollEvents answers).reverse ++ s.trace ∧
        t.env = { s.env with stat := rest } ∧ t.ctrl = s.ctrl ∧ t.mem = s.mem ∧ t.resp = s.resp ∧
        (catcher s.ctl.stk = none →
          t.ctl = { seq := .idle, stk := [], busy := false } ∧
          t.done = { s.done with result := .timeout, site := some site }) ∧
        (∀ b r, catcher s.ctl.stk = some (b, r) → t.ctl = { seq := b, stk := r, busy := true } ∧ t.done = s.done))

/-- R152 and R153 in any environment: every AWAIT ends, and its events, oldest first, are those of 1 to `POLL_MAX` reads
with a delay between two of them, of which either only the last meets the condition, and it returns, or none of
`POLL_MAX` does, and it raises. -/
def Obligations.EveryAwaitEnds : Prop :=
  ∀ (s : State) (mask : Word) (pol : Polarity) (site : Site) (back : Label) (stk : List Label),
    Serving s → s.ctl.seq = .await (.a0 mask pol site) → s.ctl.stk = back :: stk →
    ∃ k t answers, run k s = .next t ∧ t.trace = (pollEvents answers).reverse ++ s.trace ∧
      t.mem = s.mem ∧ t.ctrl = s.ctrl ∧ t.resp = s.resp ∧
      ((PollOk mask pol answers ∧ t.ctl = { seq := back, stk := stk, busy := true } ∧ t.done = s.done) ∨
        (PollFails mask pol answers ∧
          (catcher s.ctl.stk = none →
            t.ctl = { seq := .idle, stk := [], busy := false } ∧
            t.done = { s.done with result := .timeout, site := some site }) ∧
          (∀ b r, catcher s.ctl.stk = some (b, r) →
            t.ctl = { seq := b, stk := r, busy := true } ∧ t.done = s.done)))

/-- STOP_CLOCK reads STAT once and returns when CLK_EN is clear; when it is set it writes STRPCL_STOP and polls for it
to clear. START_CLOCK writes STRPCL_START whatever STAT shows and polls for CLK_EN (R170 to R173). -/
def Obligations.ClockSequencerSteps : Prop :=
  ∀ s : State, Serving s →
    (∀ (back : Label) (stk : List Label) (v : Word) (rest : List Word), s.ctl.seq = .stopClock .s0 →
      s.ctl.stk = back :: stk → s.env.stat = v :: rest → v.getLsbD 8 = false →
        ∃ t, run 2 s = .next t ∧ t.ctl = { seq := back, stk := stk, busy := true } ∧
          t.trace = .read 0x04 v :: s.trace ∧ t.ctrl = s.ctrl ∧ t.env = { s.env with stat := rest }) ∧
    (∀ (v : Word) (rest : List Word), s.ctl.seq = .stopClock .s0 → s.env.stat = v :: rest → v.getLsbD 8 = true →
        ∃ t, run 4 s = .next t ∧
          t.ctl = { seq := .await (.a0 0x100 .clear .clkStop), stk := .stopClock .s4 :: s.ctl.stk, busy := true } ∧
          t.trace = .write 0x00 0x1 :: .read 0x04 v :: s.trace ∧ t.ctrl = { s.ctrl with strpcl := 0x1 } ∧
          t.env = { s.env with stat := rest }) ∧
    (s.ctl.seq = .startClock .t0 →
        ∃ t, run 2 s = .next t ∧
          t.ctl = { seq := .await (.a0 0x100 .set .clkStart), stk := .startClock .t2 :: s.ctl.stk, busy := true } ∧
          t.trace = .write 0x00 0x2 :: s.trace ∧ t.ctrl = { s.ctrl with strpcl := 0x2 } ∧ t.env = s.env)

/-- R132 and R135 with R190 to R192: ISSUE writes CMD, ARGH, ARGL and CMDAT in this order, the command index and the
two halves of the argument zero-extended, CMDAT from the response format and the busy flag, before START_CLOCK. R127: the
format of each response-type code. -/
def Obligations.IssueWritesCommandRegisters : Prop :=
  ∀ s : State, Serving s → s.ctl.seq = .issue .i0 →
    ((s.rq.req.extractLsb' 8 3 = 0b000 → rspFmt s.rtype = 0b00) ∧
      (s.rq.req.extractLsb' 8 3 = 0b001 → rspFmt s.rtype = 0b01) ∧
      (s.rq.req.extractLsb' 8 3 = 0b010 → rspFmt s.rtype = 0b01) ∧
      (s.rq.req.extractLsb' 8 3 = 0b011 → rspFmt s.rtype = 0b10) ∧
      (s.rq.req.extractLsb' 8 3 = 0b100 → rspFmt s.rtype = 0b11) ∧
      rspFmt .none = 0b00 ∧ rspFmt .short = 0b01 ∧ rspFmt .shortBusy = 0b01 ∧ rspFmt .long = 0b10 ∧
      rspFmt .r3 = 0b11) ∧
    ∃ t, run 7 s = .next t ∧
      t.ctl = { seq := .startClock .t0, stk := .issue .i7 :: s.ctl.stk, busy := true } ∧
      t.flags = s.flags ||| (rspFmt s.rtype).setWidth 32 ||| (if s.rq.req.getLsbD 12 then 0x20 else 0) ∧
      t.trace =
        .write 0x10 t.flags ::
        .write 0x38 ((s.rq.arg.extractLsb' 0 16).setWidth 32) ::
        .write 0x34 ((s.rq.arg.extractLsb' 16 16).setWidth 32) ::
        .write 0x30 ((s.rq.req.extractLsb' 2 6).setWidth 32) :: s.trace ∧
      t.ctrl = { s.ctrl with cmd := (s.rq.req.extractLsb' 2 6).setWidth 32,
                             argh := (s.rq.arg.extractLsb' 16 16).setWidth 32,
                             argl := (s.rq.arg.extractLsb' 0 16).setWidth 32, cmdat := t.flags } ∧
      t.env = s.env ∧ t.mem = s.mem ∧ t.resp = s.resp ∧ t.done = s.done

/-- R212 and R214: a DECODE whose one STAT read shows no response timeout makes nine RES reads, whatever the response
type, and sets the four response words from them; bits 31:16 of every read, the upper byte of the first halfword and the
low byte of the last are dropped. -/
def Obligations.ResponseReassembly : Prop :=
  ∀ (s : State) (v h0 h1 h2 h3 h4 h5 h6 h7 h8 : Word) (stat res : List Word),
    Serving s → s.ctl.seq = .decode .dc0 → s.env.stat = v :: stat → v.getLsbD 1 = false →
    s.env.res = [h0, h1, h2, h3, h4, h5, h6, h7, h8] ++ res →
    ∃ t, run 24 s = .next t ∧ t.ctl = { s.ctl with seq := .decode .dc9 } ∧
      t.resp = { w0 := h0.extractLsb' 0 8 ++ h1.extractLsb' 0 16 ++ h2.extractLsb' 8 8,
                 w1 := h2.extractLsb' 0 8 ++ h3.extractLsb' 0 16 ++ h4.extractLsb' 8 8,
                 w2 := h4.extractLsb' 0 8 ++ h5.extractLsb' 0 16 ++ h6.extractLsb' 8 8,
                 w3 := h6.extractLsb' 0 8 ++ h7.extractLsb' 0 16 ++ h8.extractLsb' 8 8 } ∧
      t.env = { s.env with stat := stat, res := res } ∧
      t.trace =
        ([h0, h1, h2, h3, h4, h5, h6, h7, h8].map (Event.read 0x3C)).reverse ++ .read 0x04 v :: s.trace ∧
      t.snap = v ∧ t.done = s.done ∧ t.mem = s.mem ∧ t.ctrl = s.ctrl

/-- DECODE with TIME_OUT_RESPONSE set ends the request with `Timeout(RESP_TIMEOUT)`, whatever else the status shows and
whatever the response type: no RES read, `RESP` and `CRC_SUPP` as they were (R210, R218 cases 1 and 2, R382). -/
def Obligations.ResponseTimeoutReadsNothing : Prop :=
  ∀ (s : State) (v : Word) (rest : List Word), Serving s → s.ctl.seq = .decode .dc0 → s.env.stat = v :: rest →
    v.getLsbD 1 = true →
    ∃ t, run 2 s = .next t ∧ t.ctl = { seq := .idle, stk := [], busy := false } ∧
      t.done = { s.done with result := .timeout, site := some .respTimeout } ∧
      t.trace = .read 0x04 v :: s.trace ∧ t.env = { s.env with stat := rest } ∧ t.resp = s.resp ∧ t.mem = s.mem

/-- R215 and R216: after the nine reads, a CRC error on a checked response ends the request with ResponseCrcMismatch,
unless the response is long and its top bit is set: then DECODE returns Ok and sets `CRC_SUPP`, and only then. -/
def Obligations.CrcRuleWithSuppression : Prop :=
  ∀ s : State, Serving s → s.ctl.seq = .decode .dc9 →
    ((s.snap.getLsbD 5 = true ∧ s.rq.req.getLsbD 11 = true) ∧
        ¬ (s.rtype = .long ∧ s.resp.w0.getLsbD 31 = true) →
      ∃ t, run 3 s = .next t ∧ t.ctl = { seq := .idle, stk := [], busy := false } ∧
        t.done = { s.done with result := .responseCrcMismatch, site := none } ∧ t.resp = s.resp ∧
        t.trace = s.trace) ∧
    ((s.snap.getLsbD 5 = true ∧ s.rq.req.getLsbD 11 = true) ∧
        (s.rtype = .long ∧ s.resp.w0.getLsbD 31 = true) →
      ∃ t, run 2 s = .next t ∧ t.ctl = { seq := .execute .e7, stk := [], busy := true } ∧
        t.done = { s.done with crcSupp := true } ∧ t.resp = s.resp ∧ t.trace = s.trace) ∧
    (¬ (s.snap.getLsbD 5 = true ∧ s.rq.req.getLsbD 11 = true) →
      ∃ t, run 2 s = .next t ∧ t.ctl = { seq := .execute .e7, stk := [], busy := true } ∧
        t.done = s.done ∧ t.resp = s.resp ∧ t.trace = s.trace)

/-- One chunk of READ_PUMP: the k-th byte read from RXFIFO goes to the k-th address from the cursor, no other byte of
memory changes, and the chunk ends at P5 (R241, R249). Each read of RXFIFO is followed by the store of its byte. -/
def Obligations.ReadChunkMovesBytes : Prop :=
  ∀ (s : State) (vs rest : List Word), Serving s → s.ctl.seq = .readPump .p4 → s.pump.j = 0 → s.mem.wf = true →
    vs.length = s.pump.chunk.toNat → s.pump.cur.toNat + vs.length ≤ 2 ^ 32 → s.env.rx = vs ++ rest →
    ∃ t, run (2 * vs.length + 1) s = .next t ∧ t.ctl = { s.ctl with seq := .readPump .p5 } ∧
      t.pump.rem = s.pump.rem ∧ t.pump.chunk = s.pump.chunk ∧ t.pump.j = s.pump.chunk ∧
      t.pump.cur = s.pump.cur + s.pump.chunk ∧ t.env = { s.env with rx := rest } ∧
      (∀ k (h : k < vs.length), t.mem.read (s.pump.cur.toNat + k) = (vs[k]'h).extractLsb' 0 8) ∧
      (∀ a, a < s.pump.cur.toNat ∨ s.pump.cur.toNat + vs.length ≤ a → t.mem.read a = s.mem.read a) ∧
      t.trace = (readChunkEvents s.pump.cur vs).reverse ++ s.trace ∧ t.snap = s.snap ∧ t.done = s.done ∧ t.resp = s.resp ∧ t.ctrl = s.ctrl

/-- One chunk of WRITE_PUMP: the k-th byte sent to the TX FIFO is the byte at the k-th address from the cursor, in
order, and memory is only read (R242, R249). Each buffer read is followed by the TXFIFO write of its byte. -/
def Obligations.WriteChunkSendsBytes : Prop :=
  ∀ s : State, Serving s → s.ctl.seq = .writePump .w4 → s.pump.j = 0 →
    s.pump.cur.toNat + s.pump.chunk.toNat ≤ 2 ^ 32 →
    ∃ t, run (2 * s.pump.chunk.toNat + 1) s = .next t ∧ t.ctl = { s.ctl with seq := .writePump .w5 } ∧
      t.pump.rem = s.pump.rem ∧ t.pump.chunk = s.pump.chunk ∧ t.pump.j = s.pump.chunk ∧
      t.pump.cur = s.pump.cur + s.pump.chunk ∧
      t.env = { s.env with tx := s.env.tx ++ s.mem.bytes s.pump.cur.toNat s.pump.chunk.toNat } ∧
      t.trace =
        (writeChunkEvents s.pump.cur (s.mem.bytes s.pump.cur.toNat s.pump.chunk.toNat)).reverse ++ s.trace ∧
      t.mem = s.mem ∧ t.snap = s.snap ∧ t.done = s.done ∧ t.resp = s.resp ∧ t.ctrl = s.ctrl

/-- R248: the pump loop has no bound. As long as STAT answers neither the ready bit nor an error bit, the block goes
round the loop, one STAT read and no delay each time, for any number of answers; nothing moves and the request does not
complete. -/
def Obligations.PumpLoopHasNoBound : Prop :=
  ∀ (s : State) (vs rest : List Word), Serving s → s.pump.rem ≠ 0 → s.env.stat = vs ++ rest →
    (∀ v ∈ vs, v &&& 0x3F = 0) →
    ((s.ctl.seq = .readPump .p1 ∧ ∀ v ∈ vs, v.getLsbD 7 = false) ∨
      (s.ctl.seq = .writePump .w1 ∧ ∀ v ∈ vs, v.getLsbD 6 = false)) →
    ∃ t, run (5 * vs.length) s = .next t ∧ t.ctl = s.ctl ∧ t.pump = s.pump ∧ t.mem = s.mem ∧
      t.env = { s.env with stat := rest } ∧ t.trace = (vs.map (Event.read 0x04)).reverse ++ s.trace ∧
      t.done = s.done ∧ t.resp = s.resp ∧ t.ctrl = s.ctrl

/-- R245: an iteration reads STAT once; with the ready bit and an error bit in that one value, the chunk is moved first
and the error raised then; with an error bit and no ready bit, nothing is moved. -/
def Obligations.ReadyIsServedBeforeError : Prop :=
  ∀ (s : State) (v : Word) (rest : List Word), Serving s → s.ctl.seq = .readPump .p2 → s.mem.wf = true →
    s.env.stat = v :: rest → v &&& 0x3F ≠ 0 →
    (v.getLsbD 7 = false →
      ∃ t, run 3 s = .next t ∧ t.ctl = { seq := .idle, stk := [], busy := false } ∧
        t.done = { s.done with result := .transferIoError, site := none } ∧ t.mem = s.mem ∧
        t.trace = .read 0x04 v :: s.trace ∧ t.resp = s.resp) ∧
    (∀ vs rx : List Word, v.getLsbD 7 = true → vs.length = min s.pump.rem.toNat 32 →
      s.pump.cur.toNat + vs.length ≤ 2 ^ 32 → s.env.rx = vs ++ rx →
      ∃ k t, run k s = .next t ∧ t.ctl = { seq := .idle, stk := [], busy := false } ∧
        t.done = { s.done with result := .transferIoError, site := none } ∧ t.resp = s.resp ∧
        t.env = { s.env with stat := rest, rx := rx } ∧
        (∀ k (h : k < vs.length), t.mem.read (s.pump.cur.toNat + k) = (vs[k]'h).extractLsb' 0 8))

/-- R245 for WRITE_PUMP: with the ready bit and an error bit in the one snapshot, the chunk is sent first and the error
raised then; with an error bit and no ready bit, nothing is sent. -/
def Obligations.WriteReadyIsServedBeforeError : Prop :=
  ∀ (s : State) (v : Word) (rest : List Word), Serving s → s.ctl.seq = .writePump .w2 → s.env.stat = v :: rest →
    v &&& 0x3F ≠ 0 →
    (v.getLsbD 6 = false →
      ∃ t, run 3 s = .next t ∧ t.ctl = { seq := .idle, stk := [], busy := false } ∧
        t.done = { s.done with result := .transferIoError, site := none } ∧ t.mem = s.mem ∧
        t.trace = .read 0x04 v :: s.trace ∧ t.env = { s.env with stat := rest } ∧ t.resp = s.resp) ∧
    (v.getLsbD 6 = true → s.pump.cur.toNat + min s.pump.rem.toNat 32 ≤ 2 ^ 32 →
      ∃ k t, run k s = .next t ∧ t.ctl = { seq := .idle, stk := [], busy := false } ∧
        t.done = { s.done with result := .transferIoError, site := none } ∧ t.mem = s.mem ∧ t.resp = s.resp ∧
        t.ctrl.prtbuf = (if s.pump.rem.toNat < 32 then 0x1 else s.ctrl.prtbuf) ∧
        t.env.stat = rest ∧
        t.env.tx = s.env.tx ++
          s.mem.bytes s.pump.cur.toNat (min s.pump.rem.toNat 32))

/-- R244: WRITE_PUMP writes PRTBUF_PARTIAL to PRTBUF after the last TXFIFO write of a chunk shorter than the FIFO, and
no step of the machine writes PRTBUF at any other time. -/
def Obligations.PartialBufferSignal : Prop :=
  (∀ s : State, Serving s → s.ctl.seq = .writePump .w5 →
    ∃ t, step s = .next t ∧ t.ctl = { s.ctl with seq := .writePump .w6 } ∧
      (s.pump.chunk.toNat < 32 → t.trace = .write 0x24 0x1 :: s.trace ∧ t.ctrl = { s.ctrl with prtbuf := 0x1 }) ∧
      (32 ≤ s.pump.chunk.toNat → t = goto (.writePump .w6) s)) ∧
  (∀ (s t : State) (v : Word), step s = .next t → t.trace = .write 0x24 v :: s.trace →
    s.ctl.seq = .writePump .w5 ∧ s.pump.chunk.toNat < 32 ∧ v = 0x1)

/-- R246 and R247: once nothing remains, READ_PUMP makes one bounded wait, for DATA_TRAN_DONE, and completes; WRITE_PUMP
waits for DATA_TRAN_DONE and then for PRG_DONE, and a first wait that times out means the second is not started. -/
def Obligations.PumpFinalWaits : Prop :=
  ∀ s : State, Serving s → s.pump.rem = 0 →
    (s.ctl.seq = .readPump .p1 → ∀ first rest : List Word, s.env.stat = first ++ rest →
      (PollOk 0x800 .set first → ∃ k t, run k s = .next t ∧ t.ctl = { seq := .idle, stk := [], busy := false } ∧
        t.done = { s.done with result := .ok, site := none } ∧
        t.trace = (pollEvents first).reverse ++ s.trace ∧ t.env = { s.env with stat := rest } ∧ t.mem = s.mem) ∧
      (PollFails 0x800 .set first → ∃ k t, run k s = .next t ∧ t.ctl = { seq := .idle, stk := [], busy := false } ∧
        t.done = { s.done with result := .timeout, site := some .dataDone } ∧
        t.trace = (pollEvents first).reverse ++ s.trace ∧ t.env = { s.env with stat := rest } ∧ t.mem = s.mem)) ∧
    (s.ctl.seq = .writePump .w1 → ∀ first rest : List Word, s.env.stat = first ++ rest →
      (PollFails 0x800 .set first → ∃ k t, run k s = .next t ∧ t.ctl = { seq := .idle, stk := [], busy := false } ∧
        t.done = { s.done with result := .timeout, site := some .dataDone } ∧
        t.trace = (pollEvents first).reverse ++ s.trace ∧ t.env = { s.env with stat := rest } ∧ t.mem = s.mem) ∧
      (PollOk 0x800 .set first → ∀ second rest2 : List Word, rest = second ++ rest2 →
        (PollOk 0x1000 .set second → ∃ k t, run k s = .next t ∧
          t.ctl = { seq := .idle, stk := [], busy := false } ∧
          t.done = { s.done with result := .ok, site := none } ∧
          t.trace = (pollEvents second).reverse ++ ((pollEvents first).reverse ++ s.trace) ∧
          t.env = { s.env with stat := rest2 } ∧ t.mem = s.mem) ∧
        (PollFails 0x1000 .set second → ∃ k t, run k s = .next t ∧
          t.ctl = { seq := .idle, stk := [], busy := false } ∧
          t.done = { s.done with result := .timeout, site := some .prgDone } ∧
          t.trace = (pollEvents second).reverse ++ ((pollEvents first).reverse ++ s.trace) ∧
          t.env = { s.env with stat := rest2 } ∧ t.mem = s.mem)))

/-! ### The operations, from acceptance to completion -/

/-- EXEC in any environment: it is accepted, ends after finitely many steps with Ok, Timeout or ResponseCrcMismatch, and
touches neither the buffer nor the data registers and data FIFOs (R286, R290, R396). -/
def Obligations.ExecCompletesInEveryEnvironment : Prop :=
  ∀ (s : State) (cmd : BitVec 6) (rt : RType) (crc busyf w4 : Bool), s.ctl.busy = false → s.host = [] →
    ∃ s1 k t, exec (.exec cmd rt crc busyf w4) s = .next s1 ∧ run k s1 = .next t ∧
      t.ctl = { seq := .idle, stk := [], busy := false } ∧
      (t.done.result = .ok ∨ t.done.result = .timeout ∨ t.done.result = .responseCrcMismatch) ∧
      t.done.inst = s.done.inst ∧ t.mem = s.mem ∧ t.env.rx = s.env.rx ∧ t.env.tx = s.env.tx ∧
      t.ctrl.nob = s.ctrl.nob ∧ t.ctrl.blklen = s.ctrl.blklen ∧ t.ctrl.resto = s.ctrl.resto ∧
      t.ctrl.prtbuf = s.ctrl.prtbuf

/-- EXEC when every wait is answered in time and the response is good: the whole trace, the response words, and Ok
(R286, R291). With one answer for each wait the trace is the 18 transactions of R286. -/
def Obligations.ExecSucceeds : Prop :=
  ∀ (s : State) (cmd : BitVec 6) (rt : RType) (crc busyf w4 : Bool) (stop start ended rest : List Word)
    (status h0 h1 h2 h3 h4 h5 h6 h7 h8 : Word) (res : List Word), s.ctl.busy = false → s.host = [] →
    s.env.stat = stop ++ start ++ ended ++ status :: rest →
    s.env.res = [h0, h1, h2, h3, h4, h5, h6, h7, h8] ++ res →
    StopOk stop → PollOk 0x100 .set start → PollOk 0x2000 .set ended →
    status.getLsbD 1 = false → (status.getLsbD 5 = false ∨ crc = false) →
    ∃ s1 k t, exec (.exec cmd rt crc busyf w4) s = .next s1 ∧ run k s1 = .next t ∧
      t.ctl = { seq := .idle, stk := [], busy := false } ∧
      t.done = { s.done with result := .ok, site := none, crcSupp := false } ∧
      t.resp = { w0 := h0.extractLsb' 0 8 ++ h1.extractLsb' 0 16 ++ h2.extractLsb' 8 8,
                 w1 := h2.extractLsb' 0 8 ++ h3.extractLsb' 0 16 ++ h4.extractLsb' 8 8,
                 w2 := h4.extractLsb' 0 8 ++ h5.extractLsb' 0 16 ++ h6.extractLsb' 8 8,
                 w3 := h6.extractLsb' 0 8 ++ h7.extractLsb' 0 16 ++ h8.extractLsb' 8 8 } ∧
      t.trace =
        (stopEvents stop ++
          [Event.write 0x30 (cmd.setWidth 32), Event.write 0x34 ((s.port.arg.extractLsb' 16 16).setWidth 32),
           Event.write 0x38 ((s.port.arg.extractLsb' 0 16).setWidth 32),
           Event.write 0x10 ((if w4 then 0x100 else 0) ||| (rspFmt rt).setWidth 32 ||| (if busyf then 0x20 else 0)),
           Event.write 0x00 0x2] ++
          pollEvents start ++ pollEvents ended ++ [Event.read 0x04 status] ++
          [h0, h1, h2, h3, h4, h5, h6, h7, h8].map (Event.read 0x3C)).reverse ++ s.trace ∧
      t.env = { s.env with stat := rest, res := res } ∧ t.mem = s.mem

/-- EXEC.RD when every wait is answered in time, the response is good and the pump meets no error: all
`N = BLOCKS * BLKSIZE` bytes are in the buffer, byte k from the k-th RXFIFO read, no other byte is changed, and the
operation completes Ok after DATA_TRAN_DONE (R287, R240, R246, R249), with the whole trace: NOB, BLKLEN and RESTO first
after the clock is stopped (R282), then the command, the response, the pump's events and the final wait. -/
def Obligations.ExecRdSucceeds : Prop :=
  ∀ (s : State) (cmd : BitVec 6) (rt : RType) (crc busyf w4 : Bool) (stop start ended pump done rest : List Word)
    (status h0 h1 h2 h3 h4 h5 h6 h7 h8 : Word) (res vs rx : List Word),
    s.ctl.busy = false → s.host = [] → s.mem.wf = true → s.port.bufferFits = true →
    s.env.stat = stop ++ start ++ ended ++ status :: (pump ++ done ++ rest) →
    s.env.res = [h0, h1, h2, h3, h4, h5, h6, h7, h8] ++ res → s.env.rx = vs ++ rx →
    vs.length = s.port.blocks.toNat * s.port.blksize.toNat →
    StopOk stop → PollOk 0x100 .set start → PollOk 0x2000 .set ended →
    status.getLsbD 1 = false → (status.getLsbD 5 = false ∨ crc = false) →
    pumpOk 7 vs.length pump = true → PollOk 0x800 .set done →
    ∃ s1 k t, exec (.execRd cmd rt crc busyf w4) s = .next s1 ∧ run k s1 = .next t ∧
      t.ctl = { seq := .idle, stk := [], busy := false } ∧
      t.done = { s.done with result := .ok, site := none, crcSupp := false } ∧
      (∀ k (h : k < vs.length), t.mem.read (s.port.buf.toNat + k) = (vs[k]'h).extractLsb' 0 8) ∧
      (∀ a, a < s.port.buf.toNat ∨ s.port.buf.toNat + vs.length ≤ a → t.mem.read a = s.mem.read a) ∧
      t.ctrl.nob = s.port.blocks.setWidth 32 ∧ t.ctrl.blklen = s.port.blksize.setWidth 32 ∧
      t.ctrl.resto = 0x7F ∧ t.ctrl.prtbuf = s.ctrl.prtbuf ∧
      t.ctrl.cmdat =
        (if w4 then 0x104 else 0x4) ||| (rspFmt rt).setWidth 32 ||| (if busyf then 0x20 else 0) ∧
      t.trace =
        (stopEvents stop ++
          [Event.write 0x20 (s.port.blocks.setWidth 32), Event.write 0x1C (s.port.blksize.setWidth 32),
           Event.write 0x14 0x7F, Event.write 0x30 (cmd.setWidth 32),
           Event.write 0x34 ((s.port.arg.extractLsb' 16 16).setWidth 32),
           Event.write 0x38 ((s.port.arg.extractLsb' 0 16).setWidth 32), Event.write 0x10 t.ctrl.cmdat,
           Event.write 0x00 0x2] ++
          pollEvents start ++ pollEvents ended ++ [Event.read 0x04 status] ++
          [h0, h1, h2, h3, h4, h5, h6, h7, h8].map (Event.read 0x3C) ++
          readLoopEvents s.port.buf vs pump ++ pollEvents done).reverse ++ s.trace ∧
      t.env = { s.env with stat := rest, res := res, rx := rx }

/-- EXEC.WR when every wait is answered in time, the response is good and the pump meets no error: the TX FIFO is sent
the `N` buffer bytes in order, memory is only read, PRTBUF is written when the last chunk is short, and the operation
completes Ok after DATA_TRAN_DONE and then PRG_DONE (R288, R240, R244, R247, R249), with the whole trace: NOB, BLKLEN
and RESTO first after the clock is stopped (R282), then the command, the response, the pump's events and both final
waits. -/
def Obligations.ExecWrSucceeds : Prop :=
  ∀ (s : State) (cmd : BitVec 6) (rt : RType) (crc busyf w4 : Bool)
    (stop start ended pump done programmed rest : List Word)
    (status h0 h1 h2 h3 h4 h5 h6 h7 h8 : Word) (res : List Word),
    s.ctl.busy = false → s.host = [] → s.port.bufferFits = true →
    s.env.stat = stop ++ start ++ ended ++ status :: (pump ++ done ++ programmed ++ rest) →
    s.env.res = [h0, h1, h2, h3, h4, h5, h6, h7, h8] ++ res →
    StopOk stop → PollOk 0x100 .set start → PollOk 0x2000 .set ended →
    status.getLsbD 1 = false → (status.getLsbD 5 = false ∨ crc = false) →
    pumpOk 6 (s.port.blocks.toNat * s.port.blksize.toNat) pump = true →
    PollOk 0x800 .set done → PollOk 0x1000 .set programmed →
    ∃ s1 k t, exec (.execWr cmd rt crc busyf w4) s = .next s1 ∧ run k s1 = .next t ∧
      t.ctl = { seq := .idle, stk := [], busy := false } ∧
      t.done = { s.done with result := .ok, site := none, crcSupp := false } ∧ t.mem = s.mem ∧
      t.env =
        { s.env with
          stat := rest
          res := res
          tx := s.env.tx ++ s.mem.bytes s.port.buf.toNat (s.port.blocks.toNat * s.port.blksize.toNat) } ∧
      t.ctrl.nob = s.port.blocks.setWidth 32 ∧ t.ctrl.blklen = s.port.blksize.setWidth 32 ∧
      t.ctrl.resto = 0x7F ∧
      t.ctrl.prtbuf =
        (if s.port.blocks.toNat * s.port.blksize.toNat % 32 = 0 then s.ctrl.prtbuf else 0x1) ∧
      t.ctrl.cmdat =
        (if w4 then 0x10C else 0xC) ||| (rspFmt rt).setWidth 32 ||| (if busyf then 0x20 else 0) ∧
      t.trace =
        (stopEvents stop ++
          [Event.write 0x20 (s.port.blocks.setWidth 32), Event.write 0x1C (s.port.blksize.setWidth 32),
           Event.write 0x14 0x7F, Event.write 0x30 (cmd.setWidth 32),
           Event.write 0x34 ((s.port.arg.extractLsb' 16 16).setWidth 32),
           Event.write 0x38 ((s.port.arg.extractLsb' 0 16).setWidth 32), Event.write 0x10 t.ctrl.cmdat,
           Event.write 0x00 0x2] ++
          pollEvents start ++ pollEvents ended ++ [Event.read 0x04 status] ++
          [h0, h1, h2, h3, h4, h5, h6, h7, h8].map (Event.read 0x3C) ++
          writeLoopEvents s.port.buf (s.mem.bytes s.port.buf.toNat (s.port.blocks.toNat * s.port.blksize.toNat)) pump ++
          pollEvents done ++ pollEvents programmed).reverse ++ s.trace

/-- R281: a clock that does not stop ends every form of EXECUTE at step 1 with `Timeout(CLK_STOP)`, after the first
read, the STRPCL write and `POLL_MAX` reads, with no other bus transaction, no RES read and no buffer access. -/
def Obligations.StuckClockEndsExecute : Prop :=
  ∀ (s : State) (i : Instr) (v : Word) (answers rest : List Word),
    s.ctl.busy = false → s.host = [] → i.wellFormed s.port = true → i.start = .execute .e0 →
    s.env.stat = v :: answers ++ rest → v.getLsbD 8 = true → PollFails 0x100 .clear answers →
    ∃ s1 k t, exec i s = .next s1 ∧ run k s1 = .next t ∧
      t.ctl = { seq := .idle, stk := [], busy := false } ∧
      t.done = { s.done with result := .timeout, site := some .clkStop, crcSupp := false } ∧
      t.trace = (pollEvents answers).reverse ++ .write 0x00 0x1 :: .read 0x04 v :: s.trace ∧
      t.ctrl = { s.ctrl with strpcl := 0x1 } ∧ t.env = { s.env with stat := rest } ∧ t.resp = s.resp ∧
      t.mem = s.mem

/-- The two later waits of every form of EXECUTE name their sites: a clock that does not start gives
`Timeout(CLK_START)`, a command that does not end `Timeout(CMD_END)`, with the answers after them unread, no RES read, and
`RESP`, `INST` and the buffer as they were (R381, R386). -/
def Obligations.ExecTimeoutsNameTheirWait : Prop :=
  ∀ (s : State) (i : Instr) (stop start fails rest : List Word),
    s.ctl.busy = false → s.host = [] → i.wellFormed s.port = true → i.start = .execute .e0 → StopOk stop →
    (s.env.stat = stop ++ fails ++ rest → PollFails 0x100 .set fails →
      ∃ s1 k t, exec i s = .next s1 ∧ run k s1 = .next t ∧ t.ctl = { seq := .idle, stk := [], busy := false } ∧
        t.done = { s.done with result := .timeout, site := some .clkStart, crcSupp := false } ∧
        t.env = { s.env with stat := rest } ∧ t.resp = s.resp ∧ t.mem = s.mem) ∧
    (s.env.stat = stop ++ start ++ fails ++ rest → PollOk 0x100 .set start → PollFails 0x2000 .set fails →
      ∃ s1 k t, exec i s = .next s1 ∧ run k s1 = .next t ∧ t.ctl = { seq := .idle, stk := [], busy := false } ∧
        t.done = { s.done with result := .timeout, site := some .cmdEnd, crcSupp := false } ∧
        t.env = { s.env with stat := rest } ∧ t.resp = s.resp ∧ t.mem = s.mem)

/-- R323: the divider of a rate. -/
def Obligations.DividerFunction : Prop :=
  ∀ hz : Word, hz ≠ 0 →
    (evenRatio hz).toNat = 19500000 / hz.toNat + 19500000 / hz.toNat % 2 ∧ (evenRatio hz).toNat ≤ 19500001 ∧
    (halvings (evenRatio hz)).div.toNat =
      (if 19500000 / hz.toNat + 19500000 / hz.toNat % 2 ≤ 1 then 0
       else Nat.log2 (19500000 / hz.toNat + 19500000 / hz.toNat % 2)) ∧
    ((halvings (evenRatio hz)).div = 0 ↔ 19500000 < hz.toNat) ∧
    (hz.toNat ≤ 19500000 → 1 ≤ (halvings (evenRatio hz)).div.toNat) ∧
    (halvings (evenRatio hz)).div.toNat ≤ 31

/-- R322 and R328, with R320: a rate other than 0 is one CLKRT write and no STAT read, the fast code for the fast rate,
else the divider; it completes Ok and leaves the response, the buffer and the environment alone. For the fast rate the
divider computation is not run: SR2 writes the code and goes to SR6, past the steps that compute. -/
def Obligations.SetRateWritesClkrt : Prop :=
  (∀ s : State, Serving s → s.ctl.seq = .setRate .sr2 → s.rq.hz = 26000000 →
    ∃ t, step s = .next t ∧ t.ctl = { s.ctl with seq := .setRate .sr6 } ∧ t.rate = s.rate ∧
      t.trace = .write 0x08 7 :: s.trace) ∧
  ∀ s : State, s.ctl.busy = false → s.host = [] → s.port.hz ≠ 0 →
    ∃ s1 k t, exec .setRate s = .next s1 ∧ run k s1 = .next t ∧
      t.ctl = { seq := .idle, stk := [], busy := false } ∧
      t.done = { s.done with result := .ok, site := none, crcSupp := false } ∧
      (s.port.hz = 26000000 → t.ctrl = { s.ctrl with clkrt := 7 }) ∧
      (s.port.hz ≠ 26000000 → t.ctrl = { s.ctrl with clkrt := (halvings (evenRatio s.port.hz)).div }) ∧
      t.trace = .write 0x08 t.ctrl.clkrt :: s.trace ∧ t.resp = s.resp ∧ t.mem = s.mem ∧ t.env = s.env

/-- R327, with R321: in any environment SET_RATE ends, and with Ok and no site, also when its stop times out; rate 0
writes no CLKRT. -/
def Obligations.SetRateReportsNoError : Prop :=
  ∀ s : State, s.ctl.busy = false → s.host = [] →
    ∃ s1 k t, exec .setRate s = .next s1 ∧ run k s1 = .next t ∧
      t.ctl = { seq := .idle, stk := [], busy := false } ∧
      t.done = { s.done with result := .ok, site := none, crcSupp := false } ∧
      (s.port.hz = 0 → t.ctrl.clkrt = s.ctrl.clkrt) ∧ t.resp = s.resp ∧ t.mem = s.mem

/-- R352, with R350: an OPEN whose allocation does not fail stops the clock, then writes SPI, RESTO and I_MASK in this
order, and completes Ok with the Host Instance (R353). -/
def Obligations.OpenConfiguresController : Prop :=
  ∀ (s : State) (stop rest : List Word) (allocs : List AllocDraw), s.ctl.busy = false → s.host = [] →
    s.env.alloc = .none :: allocs → s.env.stat = stop ++ rest → StopOk stop →
    ∃ s1 k t, exec .openHost s = .next s1 ∧ run k s1 = .next t ∧
      t.ctl = { seq := .idle, stk := [], busy := false } ∧
      t.done = { result := .ok, site := none, crcSupp := false,
                 inst := { caps := Config.hostCaps, voltages := Config.hostVoltages, fMin := 304000,
                           fMax := 19500000 } } ∧
      t.trace =
        .write 0x28 0x60 :: .write 0x14 0x7F :: .write 0x0C 0x0 :: ((stopEvents stop).reverse ++ s.trace) ∧
      t.ctrl.spi = 0 ∧ t.ctrl.resto = 0x7F ∧ t.ctrl.iMask = 0x60 ∧
      t.env = { s.env with stat := rest, alloc := allocs } ∧ t.resp = s.resp ∧ t.mem = s.mem

/-- R354: OPEN fails at entry with no bus transaction, or at exit after the configuration writes; `INST` is not
written. -/
def Obligations.OpenAllocationFailure : Prop :=
  ∀ (s : State) (allocs : List AllocDraw), s.ctl.busy = false → s.host = [] →
    (s.env.alloc = .failAtEntry :: allocs →
      ∃ s1 k t, exec .openHost s = .next s1 ∧ run k s1 = .next t ∧
        t.ctl = { seq := .idle, stk := [], busy := false } ∧
        t.done = { s.done with result := .allocationFailure, site := none, crcSupp := false } ∧
        t.trace = s.trace ∧ t.ctrl = s.ctrl ∧ t.env = { s.env with alloc := allocs }) ∧
    (∀ stop rest : List Word, s.env.alloc = .failAtExit :: allocs → s.env.stat = stop ++ rest → StopOk stop →
      ∃ s1 k t, exec .openHost s = .next s1 ∧ run k s1 = .next t ∧
        t.ctl = { seq := .idle, stk := [], busy := false } ∧
        t.done = { s.done with result := .allocationFailure, site := none, crcSupp := false } ∧
        t.trace =
          .write 0x28 0x60 :: .write 0x14 0x7F :: .write 0x0C 0x0 :: ((stopEvents stop).reverse ++ s.trace) ∧
        t.env = { s.env with stat := rest, alloc := allocs })

/-- R351: an OPEN whose clock does not stop completes with `Timeout(CLK_STOP)`, writes none of SPI, RESTO and I_MASK,
and leaves `INST` unchanged. -/
def Obligations.StuckClockFailsOpen : Prop :=
  ∀ (s : State) (v : Word) (answers rest : List Word) (a : AllocDraw) (allocs : List AllocDraw),
    s.ctl.busy = false → s.host = [] → s.env.alloc = a :: allocs → a ≠ .failAtEntry →
    s.env.stat = v :: answers ++ rest → v.getLsbD 8 = true → PollFails 0x100 .clear answers →
    ∃ s1 k t, exec .openHost s = .next s1 ∧ run k s1 = .next t ∧
      t.ctl = { seq := .idle, stk := [], busy := false } ∧
      t.done = { s.done with result := .timeout, site := some .clkStop, crcSupp := false } ∧
      t.ctrl = { s.ctrl with strpcl := 0x1 } ∧
      t.trace = (pollEvents answers).reverse ++ .write 0x00 0x1 :: .read 0x04 v :: s.trace

/-- OPEN in any environment ends, with Ok, `Timeout(CLK_STOP)` or AllocationFailure, and writes `INST` only with Ok
(R350, R380, R387). -/
def Obligations.OpenCompletesInEveryEnvironment : Prop :=
  ∀ s : State, s.ctl.busy = false → s.host = [] →
    ∃ s1 k t, exec .openHost s = .next s1 ∧ run k s1 = .next t ∧
      t.ctl = { seq := .idle, stk := [], busy := false } ∧ t.resp = s.resp ∧ t.mem = s.mem ∧
      t.ctrl.clkrt = s.ctrl.clkrt ∧ t.done.crcSupp = false ∧
      ((t.done.result = .ok ∧ t.done.site = none ∧ t.done.inst = openInst) ∨
        (t.done.result = .timeout ∧ t.done.site = some .clkStop ∧ t.done.inst = s.done.inst) ∨
        (t.done.result = .allocationFailure ∧ t.done.site = none ∧ t.done.inst = s.done.inst))

/-! ### Invariants of every step -/

/-- R41 and R42 as an invariant: `BUSY` is 1 exactly when `SEQ` is not IDLE, and the stack is one that the fixed pattern
of calls builds, with labels of the latched operation. -/
def Obligations.SequencingInvariantKept : Prop :=
  ∀ s t : State, seqInv s = true → step s = .next t → seqInv t = true

/-- What the sequencing invariant says of `BUSY` and of the depth of the call stack (R41, R42). -/
def Obligations.StackHoldsAtMostThree : Prop :=
  ∀ s : State, seqInv s = true → (s.ctl.busy = true ↔ s.ctl.seq ≠ .idle) ∧ s.ctl.stk.length ≤ 3

/-- A block in order never stops with a fault: the only stops are the spec's refusals (R96, R396). -/
def Obligations.NoStepFaultsInOrder : Prop :=
  ∀ (s : State) (f : Fault), seqInv s = true → step s ≠ .fault f

/-- Every step keeps memory in its canonical form. -/
def Obligations.MemoryFormKept : Prop :=
  ∀ s t : State, s.mem.wf = true → step s = .next t → t.mem.wf = true

/-- R117: `SITE = NONE` exactly when `RESULT` is not Timeout, kept by every step. R420 leaves both unspecified at reset: that
the reset input keeps the property is the model's choice (log 1, log 2). -/
def Obligations.SiteNamesTimeoutOnly : Prop :=
  ∀ s t : State, siteInv s = true → step s = .next t → siteInv t = true

/-- R45 and R152: `PCNT` stays within `POLL_MAX`, kept by every step of a block in order. -/
def Obligations.PollCounterBounded : Prop :=
  ∀ s t : State, seqInv s = true → pollInv s = true → step s = .next t → pollInv t = true

/-- R9: no chunk exceeds `FIFO_DEPTH`, kept by every step. R420 leaves `CHUNK` unspecified at reset: that the reset input
keeps the bound is the model's choice (log 1, log 2). -/
def Obligations.ChunkNeverExceedsFifo : Prop :=
  ∀ s t : State, chunkInv s = true → step s = .next t → chunkInv t = true

/-- R82, R95 and R249: where the cursor stands, kept by every step of a block in order. -/
def Obligations.BufferInvariantKept : Prop :=
  ∀ s t : State, seqInv s = true → bufferInv s = true → step s = .next t → bufferInv t = true

/-- R82: every buffer access that a step of a block in order performs has an address of
`BUF .. BUF + BLOCKS*BLKSIZE - 1` of the latched request. -/
def Obligations.BufferAccessesStayInRange : Prop :=
  ∀ (s t : State) (a : Word) (v : Byte), seqInv s = true → bufferInv s = true → step s = .next t →
    (t.trace = .memRead a v :: s.trace ∨ t.trace = .memWrite a v :: s.trace) →
    s.rq.buf.toNat ≤ a.toNat ∧ a.toNat < s.rq.buf.toNat + s.rq.blocks.toNat * s.rq.blksize.toNat

/-- A step performs at most one primitive, and nothing is taken back from the trace (R14, R62, R89). -/
def Obligations.StepPerformsOnePrimitive : Prop :=
  ∀ s t : State, step s = .next t → t.trace = s.trace ∨ ∃ e, t.trace = e :: s.trace

/-- R387: the completion step of a block in order. It leaves IDLE with an empty stack, makes no transaction and no
buffer access, keeps `RESP` and `CRC_SUPP`, and writes `INST` only for an OPEN that completes Ok. (An OPEN that fails at
O0 clears `CRC_SUPP` and draws in its last step.) -/
def Obligations.CompletionIsPrecise : Prop :=
  ∀ s t : State, seqInv s = true → s.ctl.busy = true → (∀ rest, s.host ≠ .reset :: rest) → step s = .next t →
    t.ctl.busy = false →
      t.ctl = { seq := .idle, stk := [], busy := false } ∧ t.trace = s.trace ∧ t.mem = s.mem ∧ t.resp = s.resp ∧
      t.ctrl = s.ctrl ∧
      (s.ctl.seq ≠ .openHost .o0 → t.done.crcSupp = s.done.crcSupp ∧ t.env = s.env) ∧
      (s.ctl.seq = .openHost .o0 → t.done.crcSupp = false ∧ t.env = s.env.consumeAlloc) ∧
      (t.done.site = none ↔ t.done.result ≠ .timeout) ∧
      (t.done.inst = s.done.inst ∨ (t.done.result = .ok ∧ t.done.inst = openInst ∧ s.ctl.seq = .openHost .o6))

/-- Where each outcome comes from, in any state: a Timeout from a poll that read `POLL_MAX` times or from DECODE's
status, a CRC mismatch from DC11, a transfer error from a pump's error test, an allocation failure from OPEN's draws; and
whatever these steps raise is never Ok (R380 to R384). -/
def Obligations.ErrorsAriseOnlyAtTheirSteps : Prop :=
  ∀ s t : State, s.ctl.busy = true → (∀ rest, s.host ≠ .reset :: rest) → step s = .next t → t.ctl.busy = false →
    (t.done.result = .timeout ↔ s.ctl.seq = .await .a3 ∨ s.ctl.seq = .decode .dc1) ∧
    (s.ctl.seq = .await .a3 → s.poll.pcnt.toNat = 100 ∧ t.done.site = some s.poll.psite) ∧
    (s.ctl.seq = .decode .dc1 → s.snap.getLsbD 1 = true ∧ t.done.site = some .respTimeout) ∧
    (t.done.result = .responseCrcMismatch ↔ s.ctl.seq = .decode .dc11) ∧
    (t.done.result = .transferIoError ↔ s.ctl.seq = .readPump .p6 ∨ s.ctl.seq = .writePump .w7) ∧
    (t.done.result = .allocationFailure ↔ s.ctl.seq = .openHost .o0 ∨ s.ctl.seq = .openHost .o5)

/-- R216's last clause and R50: `CRC_SUPP` goes from 0 to 1 only at DC10, for a long response whose top bit is set, and
from 1 to 0 only at an acceptance, at the first step of an operation, or by reset. R420 leaves `CRC_SUPP` unspecified at
reset: that the reset input never sets it is the model's choice (log 1, log 2). -/
def Obligations.SuppressionFlagHasOneSetter : Prop :=
  ∀ s t : State, step s = .next t →
    (s.done.crcSupp = false → t.done.crcSupp = true →
      s.ctl.seq = .decode .dc10 ∧ s.rtype = .long ∧ s.resp.w0.getLsbD 31 = true) ∧
    (s.done.crcSupp = true → t.done.crcSupp = false →
      s.ctl.busy = false ∨ s.ctl.seq = .execute .e0 ∨ s.ctl.seq = .setRate .sr0 ∨ s.ctl.seq = .openHost .o0 ∨
        ∃ rest, s.host = .reset :: rest)

/-- R420's closing claim, with R53 and R396: what an idle block's registers hold never affects what it does. Two
machines with the same host, environment and buffer, idle with any register contents, make the same transactions and
buffer accesses over any run. -/
def Obligations.RegisterContentsNeverMatter : Prop :=
  ∀ (s s' t : State) (k : Nat),
    s.ctl = { seq := .idle, stk := [], busy := false } → s'.ctl = s.ctl → s'.port = s.port → s'.host = s.host →
    s'.ctrl = s.ctrl → s'.env = s.env → s'.mem = s.mem → s'.trace = s.trace → run k s = .next t →
    ∃ t', run k s' = .next t' ∧ t'.trace = t.trace ∧ t'.env = t.env ∧ t'.mem = t.mem ∧ t'.ctrl = t.ctrl ∧
      t'.ctl = t.ctl ∧ t'.host = t.host ∧ t'.port = t.port

/-! ### Frames -/

/-- R49: `RESP` changes only at DECODE's DC6 or by reset. -/
def Obligations.OnlyDecodeWritesResponse : Prop :=
  ∀ s t : State, step s = .next t → t.resp ≠ s.resp →
    s.ctl.seq = .decode .dc6 ∨ ∃ rest, s.host = .reset :: rest

/-- The frame of EXEC in any state: the buffer, the data pump, the data registers, the data FIFOs, the divider, `INST`,
the port and the host's moves are as before (R286). Response, flags, poll and reassembly registers may change. That the
pump and divider registers are as before in a completing step is the model's choice (R53, log 32). -/
def Obligations.ExecFrame : Prop :=
  ∀ (s t : State) (cmd : BitVec 6) (rt : RType) (crc busyf w4 : Bool),
    exec (.exec cmd rt crc busyf w4) s = .next t →
      (∀ a, t.mem.read a = s.mem.read a) ∧ t.pump = s.pump ∧ t.rate = s.rate ∧ t.alloc = s.alloc ∧
      t.done.inst = s.done.inst ∧ t.port = s.port ∧ t.host = s.host ∧ t.env.rx = s.env.rx ∧ t.env.tx = s.env.tx ∧
      t.env.alloc = s.env.alloc ∧ t.ctrl.nob = s.ctrl.nob ∧ t.ctrl.blklen = s.ctrl.blklen ∧
      t.ctrl.resto = s.ctrl.resto ∧ t.ctrl.prtbuf = s.ctrl.prtbuf ∧ t.ctrl.clkrt = s.ctrl.clkrt ∧
      t.ctrl.spi = s.ctrl.spi ∧ t.ctrl.iMask = s.ctrl.iMask ∧ (s.ctl.busy = true → t.rq = s.rq)

/-- The frame of EXEC.RD in any state: no byte of memory changes except the one at `CUR` when P4 stores, the TX FIFO and
PRTBUF are as before, and so are the divider, `INST`, the port and the host's moves (R287, R241). That the divider
registers are as before in a completing step is the model's choice (R53, log 32). -/
def Obligations.ExecRdFrame : Prop :=
  ∀ (s t : State) (cmd : BitVec 6) (rt : RType) (crc busyf w4 : Bool), s.mem.wf = true →
    exec (.execRd cmd rt crc busyf w4) s = .next t →
      (∀ a, (s.ctl.busy = true ∧ s.ctl.seq = .readPump .p4Store → a ≠ s.pump.cur.toNat) →
        t.mem.read a = s.mem.read a) ∧
      t.rate = s.rate ∧ t.alloc = s.alloc ∧ t.done.inst = s.done.inst ∧ t.port = s.port ∧ t.host = s.host ∧
      t.env.tx = s.env.tx ∧ t.env.alloc = s.env.alloc ∧ t.ctrl.prtbuf = s.ctrl.prtbuf ∧
      t.ctrl.clkrt = s.ctrl.clkrt ∧ t.ctrl.spi = s.ctrl.spi ∧ t.ctrl.iMask = s.ctrl.iMask ∧
      (s.ctl.busy = true → t.rq = s.rq)

/-- The frame of EXEC.WR in any state: memory is only read, the RX FIFO is as before, and so are the divider, `INST`,
the port and the host's moves (R288, R242). That the divider registers are as before in a completing step is the model's
choice (R53, log 32). -/
def Obligations.ExecWrFrame : Prop :=
  ∀ (s t : State) (cmd : BitVec 6) (rt : RType) (crc busyf w4 : Bool),
    exec (.execWr cmd rt crc busyf w4) s = .next t →
      (∀ a, t.mem.read a = s.mem.read a) ∧ t.rate = s.rate ∧ t.alloc = s.alloc ∧ t.done.inst = s.done.inst ∧
      t.port = s.port ∧ t.host = s.host ∧ t.env.rx = s.env.rx ∧ t.env.alloc = s.env.alloc ∧
      t.ctrl.clkrt = s.ctrl.clkrt ∧ t.ctrl.spi = s.ctrl.spi ∧ t.ctrl.iMask = s.ctrl.iMask ∧
      (s.ctl.busy = true → t.rq = s.rq)

/-- The frame of SETRATE and OPEN in any state: the response, the flags, the pump, the reassembly registers, the buffer,
the FIFOs and the command and data registers are as before; OPEN leaves CLKRT and the divider registers, SETRATE leaves
`INST`, SPI, RESTO and I_MASK (R320, R350, R355). That the flags, pump, reassembly and divider registers are as before in
a completing step is the model's choice (R53, log 32). -/
def Obligations.SystemOperationsFrame : Prop :=
  ∀ (s t : State) (i : Instr), i = .setRate ∨ i = .openHost → exec i s = .next t →
    t.resp = s.resp ∧ t.flags = s.flags ∧ t.pump = s.pump ∧ t.asm = s.asm ∧ t.port = s.port ∧ t.host = s.host ∧
    (∀ a, t.mem.read a = s.mem.read a) ∧ t.env.res = s.env.res ∧ t.env.rx = s.env.rx ∧ t.env.tx = s.env.tx ∧
    t.ctrl.cmd = s.ctrl.cmd ∧ t.ctrl.argh = s.ctrl.argh ∧ t.ctrl.argl = s.ctrl.argl ∧
    t.ctrl.cmdat = s.ctrl.cmdat ∧ t.ctrl.nob = s.ctrl.nob ∧ t.ctrl.blklen = s.ctrl.blklen ∧
    t.ctrl.prtbuf = s.ctrl.prtbuf ∧ (s.ctl.busy = true → t.rq = s.rq) ∧
    (i = .openHost → t.rate = s.rate ∧ t.ctrl.clkrt = s.ctrl.clkrt) ∧
    (i = .setRate → t.alloc = s.alloc ∧ t.done.inst = s.done.inst ∧ t.ctrl.spi = s.ctrl.spi ∧
      t.ctrl.resto = s.ctrl.resto ∧ t.ctrl.iMask = s.ctrl.iMask ∧ t.env.alloc = s.env.alloc)

/-- Buffer memory in its canonical form reads back what was written, and every other byte as before (R12, R82). -/
def Obligations.StoredByteReadsBack : Prop :=
  ∀ (m : Memory) (a b : Nat) (v : Byte), m.wf = true →
    (m.write a v).read b = if b = a then v else m.read b
end

