-- ==== Sys2Proof/Laws/Decode.lean ====
section
/-! SUPPORT. The decoder: a word that decodes is the encoding of what it decodes to. -/

namespace Sys2Proof

/-- A code that names a response type is that type's code. -/
theorem code_of_ofCode {c : BitVec 3} {rt : RType} (h : RType.ofCode c = some rt) : rt.code = c := by
  revert c rt
  decide

/-- The response type of a response type's code. -/
@[simp] theorem ofCode_code (rt : RType) : RType.ofCode rt.code = some rt := by cases rt <;> rfl

/-- A 32-bit word is its fields of R112 put together. -/
theorem word_of_fields (w : Word) :
    fieldHigh w ++ BitVec.ofBool (fieldW4 w) ++ BitVec.ofBool (fieldDir w) ++ BitVec.ofBool (fieldData w) ++
      BitVec.ofBool (fieldBusyf w) ++ BitVec.ofBool (fieldCrc w) ++ fieldRType w ++ fieldCmdIdx w ++ fieldOp w =
      (w : BitVec 32) := by
  apply BitVec.eq_of_getLsbD_eq
  intro i hi
  simp only [fieldHigh, fieldW4, fieldDir, fieldData, fieldBusyf, fieldCrc, fieldRType, fieldCmdIdx, fieldOp,
    BitVec.getLsbD_append, BitVec.getLsbD_extractLsb', BitVec.getLsbD_ofBool]
  rcases i with _|_|_|_|_|_|_|_|_|_|_|_|_|_|_|_|_|_|_|_|_|_|_|_|_|_|_|_|_|_|_|_|i
  all_goals first | omega | simp

/-- A word whose bits [31:2] are 0 is its `OP`. -/
theorem word_of_op {w : Word} (h : fieldFixed w = 0) : w = (fieldOp w).setWidth 32 := by
  apply BitVec.eq_of_getLsbD_eq
  intro i hi
  by_cases h2 : i < 2
  · simp [fieldOp, h2, hi]
  · have := congrArg (·.getLsbD (i - 2)) h
    simp [fieldFixed, show i - 2 < 30 by omega, show 2 + (i - 2) = i by omega] at this
    simp [fieldOp, h2, this]

/-- A word that decodes is the encoding of what it decodes to: no bit of an accepted request is lost. -/
theorem encode_of_decode {w : Word} {i : Instr} (h : decode w = .ok i) : encode i = w := by
  unfold decode at h
  split at h
  · rename_i hop
    split at h
    · rename_i hhi
      split at h
      · rename_i rt hrt
        have hw := word_of_fields w
        rw [hop, hhi, ← code_of_ofCode hrt] at hw
        unfold decodeExecute at h
        split at h <;> cases h <;> rename_i hd hr <;> rw [hd, hr] at hw <;> exact hw
      · cases h
    · cases h
  · split at h
    · rename_i hop
      split at h
      · rename_i hf
        cases h
        rw [word_of_op hf, hop]
        rfl
      · cases h
    · split at h
      · rename_i hop
        split at h
        · rename_i hf
          cases h
          rw [word_of_op hf, hop]
          rfl
        · cases h
      · cases h

/-- Two words that decode to the same operation are the same word. -/
theorem decode_injective {w w' : Word} {i : Instr} (h : decode w = .ok i) (h' : decode w' = .ok i) : w = w' :=
  (encode_of_decode h).symm.trans (encode_of_decode h')

end Sys2Proof
end

