-- ==== Sys2Proof/Laws/Events.lean ====
section
/-! SUPPORT. The small laws of what a trace says: the bytes of a range, and the events of a chunk taken apart. -/

namespace Sys2Proof.Machine

@[simp] theorem bytes_length (m : Memory) (a n : Nat) : (m.bytes a n).length = n := by simp [Memory.bytes]

@[simp] theorem bytes_zero (m : Memory) (a : Nat) : m.bytes a 0 = [] := rfl

/-- The bytes of a range, first one first. -/
theorem bytes_succ (m : Memory) (a n : Nat) : m.bytes a (n + 1) = m.read a :: m.bytes (a + 1) n := by
  simp [Memory.bytes, List.range_succ_eq_map, Nat.add_assoc, Nat.add_comm 1]

/-- The bytes of two adjoining ranges. -/
theorem bytes_add (m : Memory) (a j n : Nat) : m.bytes a (j + n) = m.bytes a j ++ m.bytes (a + j) n := by
  simp [Memory.bytes, List.range_add, Nat.add_assoc]

/-- The events of two adjoining runs of reads. -/
theorem readChunkEvents_append (cur : Word) (vs ws : List Word) :
    readChunkEvents cur (vs ++ ws) =
      readChunkEvents cur vs ++ readChunkEvents (cur + BitVec.ofNat 32 vs.length) ws := by
  induction vs generalizing cur with
  | nil => simp [readChunkEvents]
  | cons v vs ih =>
    have h : cur + 1 + BitVec.ofNat 32 vs.length = cur + BitVec.ofNat 32 (vs.length + 1) := by
      apply BitVec.eq_of_toNat_eq
      simp
      omega
    simp only [List.cons_append, readChunkEvents, ih, List.length_cons, h]

/-- The events of two adjoining runs of writes. -/
theorem writeChunkEvents_append (cur : Word) (bs cs : List Byte) :
    writeChunkEvents cur (bs ++ cs) =
      writeChunkEvents cur bs ++ writeChunkEvents (cur + BitVec.ofNat 32 bs.length) cs := by
  induction bs generalizing cur with
  | nil => simp [writeChunkEvents]
  | cons b bs ih =>
    have h : cur + 1 + BitVec.ofNat 32 bs.length = cur + BitVec.ofNat 32 (bs.length + 1) := by
      apply BitVec.eq_of_toNat_eq
      simp
      omega
    simp only [List.cons_append, writeChunkEvents, ih, List.length_cons, h]

end Sys2Proof.Machine
end

