-- ==== Sys2Proof/Laws/Ops.lean ====
section
/-! SUPPORT. What each shared operation does to every field of the state, said once. Each lemma is a conjunction, one
part per field, which `simp` takes as one rule per field. -/

namespace Sys2Proof.Machine

/-- `goto` moves SEQ alone. -/
@[simp] theorem goto_fields (l : Label) (s : State) :
    (goto l s).ctl = { s.ctl with seq := l } ∧ (goto l s).rq = s.rq ∧ (goto l s).flags = s.flags ∧
    (goto l s).poll = s.poll ∧ (goto l s).snap = s.snap ∧ (goto l s).pump = s.pump ∧ (goto l s).asm = s.asm ∧
    (goto l s).resp = s.resp ∧ (goto l s).done = s.done ∧ (goto l s).rate = s.rate ∧ (goto l s).alloc = s.alloc ∧
    (goto l s).port = s.port ∧ (goto l s).host = s.host ∧ (goto l s).ctrl = s.ctrl ∧ (goto l s).env = s.env ∧
    (goto l s).mem = s.mem ∧ (goto l s).trace = s.trace :=
  ⟨rfl, rfl, rfl, rfl, rfl, rfl, rfl, rfl, rfl, rfl, rfl, rfl, rfl, rfl, rfl, rfl, rfl⟩

/-- A call moves SEQ and pushes one return label. -/
@[simp] theorem call_fields (l back : Label) (s : State) :
    (call l back s).ctl = { s.ctl with seq := l, stk := back :: s.ctl.stk } ∧ (call l back s).rq = s.rq ∧
    (call l back s).flags = s.flags ∧ (call l back s).poll = s.poll ∧ (call l back s).snap = s.snap ∧
    (call l back s).pump = s.pump ∧ (call l back s).asm = s.asm ∧ (call l back s).resp = s.resp ∧
    (call l back s).done = s.done ∧ (call l back s).rate = s.rate ∧ (call l back s).alloc = s.alloc ∧
    (call l back s).port = s.port ∧ (call l back s).host = s.host ∧ (call l back s).ctrl = s.ctrl ∧
    (call l back s).env = s.env ∧ (call l back s).mem = s.mem ∧ (call l back s).trace = s.trace :=
  ⟨rfl, rfl, rfl, rfl, rfl, rfl, rfl, rfl, rfl, rfl, rfl, rfl, rfl, rfl, rfl, rfl, rfl⟩

/-- A call of AWAIT. -/
@[simp] theorem callAwait_fields (m : Word) (p : Polarity) (site : Site) (back : Label) (s : State) :
    (callAwait m p site back s).ctl = { s.ctl with seq := .await (.a0 m p site), stk := back :: s.ctl.stk } ∧
    (callAwait m p site back s).rq = s.rq ∧ (callAwait m p site back s).flags = s.flags ∧
    (callAwait m p site back s).poll = s.poll ∧ (callAwait m p site back s).snap = s.snap ∧
    (callAwait m p site back s).pump = s.pump ∧ (callAwait m p site back s).asm = s.asm ∧
    (callAwait m p site back s).resp = s.resp ∧ (callAwait m p site back s).done = s.done ∧
    (callAwait m p site back s).rate = s.rate ∧ (callAwait m p site back s).alloc = s.alloc ∧
    (callAwait m p site back s).port = s.port ∧ (callAwait m p site back s).host = s.host ∧
    (callAwait m p site back s).ctrl = s.ctrl ∧ (callAwait m p site back s).env = s.env ∧
    (callAwait m p site back s).mem = s.mem ∧ (callAwait m p site back s).trace = s.trace :=
  ⟨rfl, rfl, rfl, rfl, rfl, rfl, rfl, rfl, rfl, rfl, rfl, rfl, rfl, rfl, rfl, rfl, rfl⟩

/-- An event touches the trace alone. -/
@[simp] theorem log_fields (e : Event) (s : State) :
    (log e s).ctl = s.ctl ∧ (log e s).rq = s.rq ∧ (log e s).flags = s.flags ∧ (log e s).poll = s.poll ∧
    (log e s).snap = s.snap ∧ (log e s).pump = s.pump ∧ (log e s).asm = s.asm ∧ (log e s).resp = s.resp ∧
    (log e s).done = s.done ∧ (log e s).rate = s.rate ∧ (log e s).alloc = s.alloc ∧ (log e s).port = s.port ∧
    (log e s).host = s.host ∧ (log e s).ctrl = s.ctrl ∧ (log e s).env = s.env ∧ (log e s).mem = s.mem ∧
    (log e s).trace = e :: s.trace :=
  ⟨rfl, rfl, rfl, rfl, rfl, rfl, rfl, rfl, rfl, rfl, rfl, rfl, rfl, rfl, rfl, rfl, rfl⟩

/-- A delay is one event. -/
@[simp] theorem delay_fields (s : State) :
    (delay s).ctl = s.ctl ∧ (delay s).rq = s.rq ∧ (delay s).flags = s.flags ∧ (delay s).poll = s.poll ∧
    (delay s).snap = s.snap ∧ (delay s).pump = s.pump ∧ (delay s).asm = s.asm ∧ (delay s).resp = s.resp ∧
    (delay s).done = s.done ∧ (delay s).rate = s.rate ∧ (delay s).alloc = s.alloc ∧ (delay s).port = s.port ∧
    (delay s).host = s.host ∧ (delay s).ctrl = s.ctrl ∧ (delay s).env = s.env ∧ (delay s).mem = s.mem ∧
    (delay s).trace = .delay :: s.trace :=
  ⟨rfl, rfl, rfl, rfl, rfl, rfl, rfl, rfl, rfl, rfl, rfl, rfl, rfl, rfl, rfl, rfl, rfl⟩

/-- A register read consumes one answer and is one event. -/
@[simp] theorem afterRead_fields (r : ReadReg) (s : State) :
    (afterRead r s).ctl = s.ctl ∧ (afterRead r s).rq = s.rq ∧ (afterRead r s).flags = s.flags ∧
    (afterRead r s).poll = s.poll ∧ (afterRead r s).snap = s.snap ∧ (afterRead r s).pump = s.pump ∧
    (afterRead r s).asm = s.asm ∧ (afterRead r s).resp = s.resp ∧ (afterRead r s).done = s.done ∧
    (afterRead r s).rate = s.rate ∧ (afterRead r s).alloc = s.alloc ∧ (afterRead r s).port = s.port ∧
    (afterRead r s).host = s.host ∧ (afterRead r s).ctrl = s.ctrl ∧ (afterRead r s).env = s.env.consume r ∧
    (afterRead r s).mem = s.mem ∧ (afterRead r s).trace = .read r.offset (readValue r s) :: s.trace :=
  ⟨rfl, rfl, rfl, rfl, rfl, rfl, rfl, rfl, rfl, rfl, rfl, rfl, rfl, rfl, rfl, rfl, rfl⟩

/-- A register write reaches the controller's register or TX FIFO and is one event. -/
@[simp] theorem regWrite_fields (r : WriteReg) (v : Word) (s : State) :
    (regWrite r v s).ctl = s.ctl ∧ (regWrite r v s).rq = s.rq ∧ (regWrite r v s).flags = s.flags ∧
    (regWrite r v s).poll = s.poll ∧ (regWrite r v s).snap = s.snap ∧ (regWrite r v s).pump = s.pump ∧
    (regWrite r v s).asm = s.asm ∧ (regWrite r v s).resp = s.resp ∧ (regWrite r v s).done = s.done ∧
    (regWrite r v s).rate = s.rate ∧ (regWrite r v s).alloc = s.alloc ∧ (regWrite r v s).port = s.port ∧
    (regWrite r v s).host = s.host ∧ (regWrite r v s).ctrl = s.ctrl.put v r ∧
    (regWrite r v s).env = s.env.absorb v r ∧ (regWrite r v s).mem = s.mem ∧
    (regWrite r v s).trace = .write r.offset v :: s.trace :=
  ⟨rfl, rfl, rfl, rfl, rfl, rfl, rfl, rfl, rfl, rfl, rfl, rfl, rfl, rfl, rfl, rfl, rfl⟩

/-- A buffer read is one event. -/
@[simp] theorem afterMemRead_fields (a : Word) (s : State) :
    (afterMemRead a s).ctl = s.ctl ∧ (afterMemRead a s).rq = s.rq ∧ (afterMemRead a s).flags = s.flags ∧
    (afterMemRead a s).poll = s.poll ∧ (afterMemRead a s).snap = s.snap ∧ (afterMemRead a s).pump = s.pump ∧
    (afterMemRead a s).asm = s.asm ∧ (afterMemRead a s).resp = s.resp ∧ (afterMemRead a s).done = s.done ∧
    (afterMemRead a s).rate = s.rate ∧ (afterMemRead a s).alloc = s.alloc ∧ (afterMemRead a s).port = s.port ∧
    (afterMemRead a s).host = s.host ∧ (afterMemRead a s).ctrl = s.ctrl ∧ (afterMemRead a s).env = s.env ∧
    (afterMemRead a s).mem = s.mem ∧ (afterMemRead a s).trace = .memRead a (memValue a s) :: s.trace :=
  ⟨rfl, rfl, rfl, rfl, rfl, rfl, rfl, rfl, rfl, rfl, rfl, rfl, rfl, rfl, rfl, rfl, rfl⟩

/-- A buffer write stores one byte and is one event. -/
@[simp] theorem memWrite_fields (a : Word) (v : Byte) (s : State) :
    (memWrite a v s).ctl = s.ctl ∧ (memWrite a v s).rq = s.rq ∧ (memWrite a v s).flags = s.flags ∧
    (memWrite a v s).poll = s.poll ∧ (memWrite a v s).snap = s.snap ∧ (memWrite a v s).pump = s.pump ∧
    (memWrite a v s).asm = s.asm ∧ (memWrite a v s).resp = s.resp ∧ (memWrite a v s).done = s.done ∧
    (memWrite a v s).rate = s.rate ∧ (memWrite a v s).alloc = s.alloc ∧ (memWrite a v s).port = s.port ∧
    (memWrite a v s).host = s.host ∧ (memWrite a v s).ctrl = s.ctrl ∧ (memWrite a v s).env = s.env ∧
    (memWrite a v s).mem = s.mem.write a.toNat v ∧ (memWrite a v s).trace = .memWrite a v :: s.trace :=
  ⟨rfl, rfl, rfl, rfl, rfl, rfl, rfl, rfl, rfl, rfl, rfl, rfl, rfl, rfl, rfl, rfl, rfl⟩

/-- The completion step (R387). -/
@[simp] theorem complete_fields (r : Result) (site : Option Site) (s : State) :
    (complete r site s).ctl = { seq := .idle, stk := [], busy := false } ∧ (complete r site s).rq = s.rq ∧
    (complete r site s).flags = s.flags ∧ (complete r site s).poll = s.poll ∧ (complete r site s).snap = s.snap ∧
    (complete r site s).pump = s.pump ∧ (complete r site s).asm = s.asm ∧ (complete r site s).resp = s.resp ∧
    (complete r site s).done = { s.done with result := r, site := site } ∧ (complete r site s).rate = s.rate ∧
    (complete r site s).alloc = s.alloc ∧ (complete r site s).port = s.port ∧ (complete r site s).host = s.host ∧
    (complete r site s).ctrl = s.ctrl ∧ (complete r site s).env = s.env ∧ (complete r site s).mem = s.mem ∧
    (complete r site s).trace = s.trace :=
  ⟨rfl, rfl, rfl, rfl, rfl, rfl, rfl, rfl, rfl, rfl, rfl, rfl, rfl, rfl, rfl, rfl, rfl⟩

/-- Acceptance (R110). -/
@[simp] theorem accept_fields (w : Word) (l : Label) (s : State) :
    (accept w l s).ctl = { seq := l, stk := [], busy := true } ∧
    (accept w l s).rq = { req := w, arg := s.port.arg, blocks := s.port.blocks, blksize := s.port.blksize, buf := s.port.buf, hz := s.port.hz } ∧
    (accept w l s).flags = s.flags ∧ (accept w l s).poll = s.poll ∧ (accept w l s).snap = s.snap ∧
    (accept w l s).pump = s.pump ∧ (accept w l s).asm = s.asm ∧ (accept w l s).resp = s.resp ∧
    (accept w l s).done = { s.done with crcSupp := false } ∧ (accept w l s).rate = s.rate ∧
    (accept w l s).alloc = s.alloc ∧ (accept w l s).port = s.port ∧ (accept w l s).host = s.host ∧
    (accept w l s).ctrl = s.ctrl ∧ (accept w l s).env = s.env ∧ (accept w l s).mem = s.mem ∧
    (accept w l s).trace = s.trace :=
  ⟨rfl, rfl, rfl, rfl, rfl, rfl, rfl, rfl, rfl, rfl, rfl, rfl, rfl, rfl, rfl, rfl, rfl⟩

/-- `SNAP <- RegRead(STAT)`. -/
@[simp] theorem readStat_fields (s : State) :
    (readStat s).ctl = s.ctl ∧ (readStat s).rq = s.rq ∧ (readStat s).flags = s.flags ∧ (readStat s).poll = s.poll ∧
    (readStat s).snap = readValue .stat s ∧ (readStat s).pump = s.pump ∧ (readStat s).asm = s.asm ∧
    (readStat s).resp = s.resp ∧ (readStat s).done = s.done ∧ (readStat s).rate = s.rate ∧
    (readStat s).alloc = s.alloc ∧ (readStat s).port = s.port ∧ (readStat s).host = s.host ∧
    (readStat s).ctrl = s.ctrl ∧ (readStat s).env = s.env.consume .stat ∧ (readStat s).mem = s.mem ∧
    (readStat s).trace = .read ReadReg.stat.offset (readValue .stat s) :: s.trace :=
  ⟨rfl, rfl, rfl, rfl, rfl, rfl, rfl, rfl, rfl, rfl, rfl, rfl, rfl, rfl, rfl, rfl, rfl⟩

/-- `PCNT <- PCNT + 1`. -/
@[simp] theorem countRead_fields (s : State) :
    (countRead s).ctl = s.ctl ∧ (countRead s).rq = s.rq ∧ (countRead s).flags = s.flags ∧
    (countRead s).poll = { s.poll with pcnt := s.poll.pcnt + 1 } ∧ (countRead s).snap = s.snap ∧
    (countRead s).pump = s.pump ∧ (countRead s).asm = s.asm ∧ (countRead s).resp = s.resp ∧
    (countRead s).done = s.done ∧ (countRead s).rate = s.rate ∧ (countRead s).alloc = s.alloc ∧
    (countRead s).port = s.port ∧ (countRead s).host = s.host ∧ (countRead s).ctrl = s.ctrl ∧
    (countRead s).env = s.env ∧ (countRead s).mem = s.mem ∧ (countRead s).trace = s.trace :=
  ⟨rfl, rfl, rfl, rfl, rfl, rfl, rfl, rfl, rfl, rfl, rfl, rfl, rfl, rfl, rfl, rfl, rfl⟩

/-- Reset (R420). -/
@[simp] theorem blockReset_fields (s : State) :
    (blockReset s).ctl = State.reset.ctl ∧ (blockReset s).rq = State.reset.rq ∧
    (blockReset s).flags = State.reset.flags ∧ (blockReset s).poll = State.reset.poll ∧
    (blockReset s).snap = State.reset.snap ∧ (blockReset s).pump = State.reset.pump ∧
    (blockReset s).asm = State.reset.asm ∧ (blockReset s).resp = State.reset.resp ∧
    (blockReset s).done = State.reset.done ∧ (blockReset s).rate = State.reset.rate ∧
    (blockReset s).alloc = State.reset.alloc ∧ (blockReset s).port = s.port ∧ (blockReset s).host = s.host ∧
    (blockReset s).ctrl = s.ctrl ∧ (blockReset s).env = s.env ∧ (blockReset s).mem = s.mem ∧
    (blockReset s).trace = s.trace :=
  ⟨rfl, rfl, rfl, rfl, rfl, rfl, rfl, rfl, rfl, rfl, rfl, rfl, rfl, rfl, rfl, rfl, rfl⟩

/-- A return either completes the operation or resumes the caller. -/
theorem ret_cases (s : State) :
    (s.ctl.stk = [] ∧ ret s = complete .ok none s) ∨
      ∃ back stk, s.ctl.stk = back :: stk ∧ ret s = s.setCtl { s.ctl with seq := back, stk := stk } := by
  unfold ret
  split
  · rename_i h
    exact .inl ⟨h, rfl⟩
  · rename_i back stk h
    exact .inr ⟨back, stk, h, rfl⟩

/-- A raise either completes the operation with the error or resumes the caller that discards it. -/
theorem raise_cases (e : Err) (s : State) :
    (catcher s.ctl.stk = none ∧ raise e s = complete e.result e.site s) ∨
      ∃ back stk, catcher s.ctl.stk = some (back, stk) ∧ raise e s = s.setCtl { s.ctl with seq := back, stk := stk } := by
  unfold raise
  split
  · rename_i h
    exact .inl ⟨h, rfl⟩
  · rename_i back stk h
    exact .inr ⟨back, stk, h, rfl⟩

/-- The caller an error reaches is SET_RATE at SR6, and its stack is the rest of the call stack below it. -/
theorem catcher_some {stk : List Label} {back : Label} {rest : List Label} (h : catcher stk = some (back, rest)) :
    back = .setRate .sr6 ∧ ∃ inner, stk = inner ++ back :: rest := by
  induction stk with
  | nil => cases h
  | cons l stk ih =>
    unfold catcher at h
    split at h
    · rename_i hd
      cases h
      exact ⟨by simpa [discards] using hd, [], rfl⟩
    · obtain ⟨hb, inner, hs⟩ := ih h
      exact ⟨hb, l :: inner, by rw [hs]; rfl⟩

/-- A return touches the control registers and the completion record alone. -/
theorem ret_frame (s : State) : ret s = (s.setDone (ret s).done).setCtl (ret s).ctl := by
  rcases ret_cases s with ⟨_, h⟩ | ⟨_, _, _, h⟩ <;> rw [h] <;> rfl

/-- A raise touches the control registers and the completion record alone. -/
theorem raise_frame (e : Err) (s : State) : raise e s = (s.setDone (raise e s).done).setCtl (raise e s).ctl := by
  rcases raise_cases e s with ⟨_, h⟩ | ⟨_, _, _, h⟩ <;> rw [h] <;> rfl

/-- The fields a ret leaves alone. -/
@[simp] theorem ret_fields (s : State) :
    (ret s).rq = s.rq ∧ (ret s).flags = s.flags ∧ (ret s).poll = s.poll ∧ (ret s).snap = s.snap ∧
    (ret s).pump = s.pump ∧ (ret s).asm = s.asm ∧ (ret s).resp = s.resp ∧ (ret s).rate = s.rate ∧
    (ret s).alloc = s.alloc ∧ (ret s).port = s.port ∧ (ret s).host = s.host ∧ (ret s).ctrl = s.ctrl ∧
    (ret s).env = s.env ∧ (ret s).mem = s.mem ∧ (ret s).trace = s.trace := by
  rw [ret_frame s]
  exact ⟨rfl, rfl, rfl, rfl, rfl, rfl, rfl, rfl, rfl, rfl, rfl, rfl, rfl, rfl, rfl⟩

/-- The fields a raise leaves alone. -/
@[simp] theorem raise_fields (e : Err) (s : State) :
    (raise e s).rq = s.rq ∧ (raise e s).flags = s.flags ∧ (raise e s).poll = s.poll ∧ (raise e s).snap = s.snap ∧
    (raise e s).pump = s.pump ∧ (raise e s).asm = s.asm ∧ (raise e s).resp = s.resp ∧ (raise e s).rate = s.rate ∧
    (raise e s).alloc = s.alloc ∧ (raise e s).port = s.port ∧ (raise e s).host = s.host ∧
    (raise e s).ctrl = s.ctrl ∧ (raise e s).env = s.env ∧ (raise e s).mem = s.mem ∧
    (raise e s).trace = s.trace := by
  rw [raise_frame e s]
  exact ⟨rfl, rfl, rfl, rfl, rfl, rfl, rfl, rfl, rfl, rfl, rfl, rfl, rfl, rfl, rfl⟩

end Sys2Proof.Machine
end

