-- ==== Sys2Proof/Laws/Families.lean ====
section
/-! SUPPORT. What each operation of a procedure does to every field of the state, in the form of Sys2Proof/Laws/Ops.lean;
and what the partial-buffer signal and the choice of a pump do, by cases. -/

namespace Sys2Proof.Machine

/-- `RegRead(RES)[15:0]` into RA. -/
@[simp] theorem readRa_fields (s : State) :
    (readRa s).ctl = s.ctl ∧ (readRa s).rq = s.rq ∧ (readRa s).flags = s.flags ∧ (readRa s).poll = s.poll ∧
    (readRa s).snap = s.snap ∧ (readRa s).pump = s.pump ∧
    (readRa s).asm = { s.asm with ra := lowHalf (readValue .res s) } ∧ (readRa s).resp = s.resp ∧
    (readRa s).done = s.done ∧ (readRa s).rate = s.rate ∧ (readRa s).alloc = s.alloc ∧ (readRa s).port = s.port ∧
    (readRa s).host = s.host ∧ (readRa s).ctrl = s.ctrl ∧ (readRa s).env = s.env.consume .res ∧
    (readRa s).mem = s.mem ∧ (readRa s).trace = .read ReadReg.res.offset (readValue .res s) :: s.trace :=
  ⟨rfl, rfl, rfl, rfl, rfl, rfl, rfl, rfl, rfl, rfl, rfl, rfl, rfl, rfl, rfl, rfl, rfl⟩

/-- `RegRead(RES)[15:0]` into RB. -/
@[simp] theorem readRb_fields (s : State) :
    (readRb s).ctl = s.ctl ∧ (readRb s).rq = s.rq ∧ (readRb s).flags = s.flags ∧ (readRb s).poll = s.poll ∧
    (readRb s).snap = s.snap ∧ (readRb s).pump = s.pump ∧
    (readRb s).asm = { s.asm with rb := lowHalf (readValue .res s) } ∧ (readRb s).resp = s.resp ∧
    (readRb s).done = s.done ∧ (readRb s).rate = s.rate ∧ (readRb s).alloc = s.alloc ∧ (readRb s).port = s.port ∧
    (readRb s).host = s.host ∧ (readRb s).ctrl = s.ctrl ∧ (readRb s).env = s.env.consume .res ∧
    (readRb s).mem = s.mem ∧ (readRb s).trace = .read ReadReg.res.offset (readValue .res s) :: s.trace :=
  ⟨rfl, rfl, rfl, rfl, rfl, rfl, rfl, rfl, rfl, rfl, rfl, rfl, rfl, rfl, rfl, rfl, rfl⟩

/-- `RegRead(RES)[15:0]` into RC. -/
@[simp] theorem readRc_fields (s : State) :
    (readRc s).ctl = s.ctl ∧ (readRc s).rq = s.rq ∧ (readRc s).flags = s.flags ∧ (readRc s).poll = s.poll ∧
    (readRc s).snap = s.snap ∧ (readRc s).pump = s.pump ∧
    (readRc s).asm = { s.asm with rc := lowHalf (readValue .res s) } ∧ (readRc s).resp = s.resp ∧
    (readRc s).done = s.done ∧ (readRc s).rate = s.rate ∧ (readRc s).alloc = s.alloc ∧ (readRc s).port = s.port ∧
    (readRc s).host = s.host ∧ (readRc s).ctrl = s.ctrl ∧ (readRc s).env = s.env.consume .res ∧
    (readRc s).mem = s.mem ∧ (readRc s).trace = .read ReadReg.res.offset (readValue .res s) :: s.trace :=
  ⟨rfl, rfl, rfl, rfl, rfl, rfl, rfl, rfl, rfl, rfl, rfl, rfl, rfl, rfl, rfl, rfl, rfl⟩

/-- One response word is assembled (R212). -/
@[simp] theorem assemble_fields (s : State) :
    (assemble s).ctl = s.ctl ∧ (assemble s).rq = s.rq ∧ (assemble s).flags = s.flags ∧ (assemble s).poll = s.poll ∧
    (assemble s).snap = s.snap ∧ (assemble s).pump = s.pump ∧ (assemble s).asm = s.asm ∧
    (assemble s).resp = s.resp.put s.asm.ri (responseWord s.asm.ra s.asm.rb s.asm.rc) ∧ (assemble s).done = s.done ∧
    (assemble s).rate = s.rate ∧ (assemble s).alloc = s.alloc ∧ (assemble s).port = s.port ∧
    (assemble s).host = s.host ∧ (assemble s).ctrl = s.ctrl ∧ (assemble s).env = s.env ∧ (assemble s).mem = s.mem ∧
    (assemble s).trace = s.trace :=
  ⟨rfl, rfl, rfl, rfl, rfl, rfl, rfl, rfl, rfl, rfl, rfl, rfl, rfl, rfl, rfl, rfl, rfl⟩

/-- A pump starts (R240). -/
@[simp] theorem startPump_fields (s : State) :
    (startPump s).ctl = s.ctl ∧ (startPump s).rq = s.rq ∧ (startPump s).flags = s.flags ∧
    (startPump s).poll = s.poll ∧ (startPump s).snap = s.snap ∧
    (startPump s).pump = { s.pump with rem := transferLength s.rq.blocks s.rq.blksize, cur := s.rq.buf } ∧
    (startPump s).asm = s.asm ∧ (startPump s).resp = s.resp ∧ (startPump s).done = s.done ∧
    (startPump s).rate = s.rate ∧ (startPump s).alloc = s.alloc ∧ (startPump s).port = s.port ∧
    (startPump s).host = s.host ∧ (startPump s).ctrl = s.ctrl ∧ (startPump s).env = s.env ∧
    (startPump s).mem = s.mem ∧ (startPump s).trace = s.trace :=
  ⟨rfl, rfl, rfl, rfl, rfl, rfl, rfl, rfl, rfl, rfl, rfl, rfl, rfl, rfl, rfl, rfl, rfl⟩

/-- A chunk starts (R243). -/
@[simp] theorem startChunk_fields (s : State) :
    (startChunk s).ctl = s.ctl ∧ (startChunk s).rq = s.rq ∧ (startChunk s).flags = s.flags ∧
    (startChunk s).poll = s.poll ∧ (startChunk s).snap = s.snap ∧
    (startChunk s).pump = { s.pump with chunk := chunkSize s.pump.rem, j := 0 } ∧ (startChunk s).asm = s.asm ∧
    (startChunk s).resp = s.resp ∧ (startChunk s).done = s.done ∧ (startChunk s).rate = s.rate ∧
    (startChunk s).alloc = s.alloc ∧ (startChunk s).port = s.port ∧ (startChunk s).host = s.host ∧
    (startChunk s).ctrl = s.ctrl ∧ (startChunk s).env = s.env ∧ (startChunk s).mem = s.mem ∧
    (startChunk s).trace = s.trace :=
  ⟨rfl, rfl, rfl, rfl, rfl, rfl, rfl, rfl, rfl, rfl, rfl, rfl, rfl, rfl, rfl, rfl, rfl⟩

/-- The cursor and the byte index go one on (R95). -/
@[simp] theorem advanceByte_fields (s : State) :
    (advanceByte s).ctl = s.ctl ∧ (advanceByte s).rq = s.rq ∧ (advanceByte s).flags = s.flags ∧
    (advanceByte s).poll = s.poll ∧ (advanceByte s).snap = s.snap ∧
    (advanceByte s).pump = { s.pump with cur := s.pump.cur + 1, j := s.pump.j + 1 } ∧ (advanceByte s).asm = s.asm ∧
    (advanceByte s).resp = s.resp ∧ (advanceByte s).done = s.done ∧ (advanceByte s).rate = s.rate ∧
    (advanceByte s).alloc = s.alloc ∧ (advanceByte s).port = s.port ∧ (advanceByte s).host = s.host ∧
    (advanceByte s).ctrl = s.ctrl ∧ (advanceByte s).env = s.env ∧ (advanceByte s).mem = s.mem ∧
    (advanceByte s).trace = s.trace :=
  ⟨rfl, rfl, rfl, rfl, rfl, rfl, rfl, rfl, rfl, rfl, rfl, rfl, rfl, rfl, rfl, rfl, rfl⟩

/-- A chunk ends. -/
@[simp] theorem endChunk_fields (s : State) :
    (endChunk s).ctl = s.ctl ∧ (endChunk s).rq = s.rq ∧ (endChunk s).flags = s.flags ∧ (endChunk s).poll = s.poll ∧
    (endChunk s).snap = s.snap ∧ (endChunk s).pump = { s.pump with rem := s.pump.rem - s.pump.chunk } ∧
    (endChunk s).asm = s.asm ∧ (endChunk s).resp = s.resp ∧ (endChunk s).done = s.done ∧ (endChunk s).rate = s.rate ∧
    (endChunk s).alloc = s.alloc ∧ (endChunk s).port = s.port ∧ (endChunk s).host = s.host ∧
    (endChunk s).ctrl = s.ctrl ∧ (endChunk s).env = s.env ∧ (endChunk s).mem = s.mem ∧ (endChunk s).trace = s.trace :=
  ⟨rfl, rfl, rfl, rfl, rfl, rfl, rfl, rfl, rfl, rfl, rfl, rfl, rfl, rfl, rfl, rfl, rfl⟩

/-- One RXFIFO read (R241). -/
@[simp] theorem readRxfifo_fields (s : State) :
    (readRxfifo s).ctl = s.ctl ∧ (readRxfifo s).rq = s.rq ∧ (readRxfifo s).flags = s.flags ∧
    (readRxfifo s).poll = s.poll ∧ (readRxfifo s).snap = s.snap ∧
    (readRxfifo s).pump = { s.pump with v := readValue .rxfifo s } ∧ (readRxfifo s).asm = s.asm ∧
    (readRxfifo s).resp = s.resp ∧ (readRxfifo s).done = s.done ∧ (readRxfifo s).rate = s.rate ∧
    (readRxfifo s).alloc = s.alloc ∧ (readRxfifo s).port = s.port ∧ (readRxfifo s).host = s.host ∧
    (readRxfifo s).ctrl = s.ctrl ∧ (readRxfifo s).env = s.env.consume .rxfifo ∧ (readRxfifo s).mem = s.mem ∧
    (readRxfifo s).trace = .read ReadReg.rxfifo.offset (readValue .rxfifo s) :: s.trace :=
  ⟨rfl, rfl, rfl, rfl, rfl, rfl, rfl, rfl, rfl, rfl, rfl, rfl, rfl, rfl, rfl, rfl, rfl⟩

/-- One buffer read (R242). -/
@[simp] theorem fetchByte_fields (s : State) :
    (fetchByte s).ctl = s.ctl ∧ (fetchByte s).rq = s.rq ∧ (fetchByte s).flags = s.flags ∧
    (fetchByte s).poll = s.poll ∧ (fetchByte s).snap = s.snap ∧
    (fetchByte s).pump = { s.pump with b := memValue s.pump.cur s } ∧ (fetchByte s).asm = s.asm ∧
    (fetchByte s).resp = s.resp ∧ (fetchByte s).done = s.done ∧ (fetchByte s).rate = s.rate ∧
    (fetchByte s).alloc = s.alloc ∧ (fetchByte s).port = s.port ∧ (fetchByte s).host = s.host ∧
    (fetchByte s).ctrl = s.ctrl ∧ (fetchByte s).env = s.env ∧ (fetchByte s).mem = s.mem ∧
    (fetchByte s).trace = .memRead s.pump.cur (memValue s.pump.cur s) :: s.trace :=
  ⟨rfl, rfl, rfl, rfl, rfl, rfl, rfl, rfl, rfl, rfl, rfl, rfl, rfl, rfl, rfl, rfl, rfl⟩

/-- OPEN's draw (R354). -/
@[simp] theorem drawAlloc_fields (s : State) :
    (drawAlloc s).ctl = s.ctl ∧ (drawAlloc s).rq = s.rq ∧ (drawAlloc s).flags = s.flags ∧
    (drawAlloc s).poll = s.poll ∧ (drawAlloc s).snap = s.snap ∧ (drawAlloc s).pump = s.pump ∧
    (drawAlloc s).asm = s.asm ∧ (drawAlloc s).resp = s.resp ∧ (drawAlloc s).done = s.done ∧
    (drawAlloc s).rate = s.rate ∧ (drawAlloc s).alloc = allocValue s ∧ (drawAlloc s).port = s.port ∧
    (drawAlloc s).host = s.host ∧ (drawAlloc s).ctrl = s.ctrl ∧ (drawAlloc s).env = s.env.consumeAlloc ∧
    (drawAlloc s).mem = s.mem ∧ (drawAlloc s).trace = s.trace :=
  ⟨rfl, rfl, rfl, rfl, rfl, rfl, rfl, rfl, rfl, rfl, rfl, rfl, rfl, rfl, rfl, rfl, rfl⟩

/-- O0's effects before its test (R350). -/
@[simp] theorem openEntry_fields (s : State) :
    (openEntry s).ctl = s.ctl ∧ (openEntry s).rq = s.rq ∧ (openEntry s).flags = s.flags ∧
    (openEntry s).poll = s.poll ∧ (openEntry s).snap = s.snap ∧ (openEntry s).pump = s.pump ∧
    (openEntry s).asm = s.asm ∧ (openEntry s).resp = s.resp ∧ (openEntry s).done = { s.done with crcSupp := false } ∧
    (openEntry s).rate = s.rate ∧ (openEntry s).alloc = allocValue s ∧ (openEntry s).port = s.port ∧
    (openEntry s).host = s.host ∧ (openEntry s).ctrl = s.ctrl ∧ (openEntry s).env = s.env.consumeAlloc ∧
    (openEntry s).mem = s.mem ∧ (openEntry s).trace = s.trace :=
  ⟨rfl, rfl, rfl, rfl, rfl, rfl, rfl, rfl, rfl, rfl, rfl, rfl, rfl, rfl, rfl, rfl, rfl⟩

/-- W5 writes PRTBUF after a short chunk and does nothing after a full one (R244). -/
theorem signalPartial_cases (s : State) :
    (s.pump.chunk < Config.fifoDepth ∧ signalPartial s = regWrite .prtbuf Config.prtbufPartial s) ∨
      (¬ s.pump.chunk < Config.fifoDepth ∧ signalPartial s = s) := by
  unfold signalPartial
  split
  · rename_i h
    exact .inl ⟨h, rfl⟩
  · rename_i h
    exact .inr ⟨h, rfl⟩

/-- E7 calls the pump of the declared direction (R285). -/
theorem callPump_cases (s : State) :
    (s.dir = true ∧ callPump s = call (.writePump .w0) (.execute .e8) s) ∨
      (s.dir = false ∧ callPump s = call (.readPump .p0) (.execute .e8) s) := by
  unfold callPump
  by_cases h : s.dir = true
  · exact .inl ⟨h, by simp [h]⟩
  · exact .inr ⟨by simpa using h, by simp [h]⟩

/-! ### Reads that a pending answer meets -/

section
variable {s : State} {v : Word} {rest : List Word}

/-- A STAT read takes the oldest pending answer. -/
theorem readValue_stat (h : s.env.stat = v :: rest) : readValue .stat s = v := by
  simp [readValue, Env.pending, h]

/-- A RES read takes the oldest pending answer. -/
theorem readValue_res (h : s.env.res = v :: rest) : readValue .res s = v := by
  simp [readValue, Env.pending, h]

/-- An RXFIFO read takes the oldest pending answer. -/
theorem readValue_rxfifo (h : s.env.rx = v :: rest) : readValue .rxfifo s = v := by
  simp [readValue, Env.pending, h]

/-- The environment after a STAT read that a pending answer met. -/
theorem consume_stat {e : Env} (h : e.stat = v :: rest) : e.consume .stat = { e with stat := rest } := by
  simp [Env.consume, Env.pending, h]

/-- The environment after a RES read that a pending answer met. -/
theorem consume_res {e : Env} (h : e.res = v :: rest) : e.consume .res = { e with res := rest } := by
  simp [Env.consume, Env.pending, h]

/-- The environment after an RXFIFO read that a pending answer met. -/
theorem consume_rxfifo {e : Env} (h : e.rx = v :: rest) : e.consume .rxfifo = { e with rx := rest } := by
  simp [Env.consume, Env.pending, h]
end

end Sys2Proof.Machine
end

