-- ==== Sys2Proof/Laws/Flags.lean ====
section
/-! SUPPORT. The values of the status masks at the default positions of spec/30_encoding.md R122 and R123. -/

namespace Sys2Proof.Machine

/-- The six error positions make R123's mask. -/
theorem errMask_eq : errMask = 0x3F := by decide

/-- The pumps' error test, by the mask's value (R123). -/
theorem hasError_eq (snap : Word) : hasError snap = (snap &&& 0x3F != 0) := by rw [hasError, errMask_eq]

/-- The mask of CLK_EN. -/
theorem mask_clkEn : bitMask bitClkEn = 0x100 := by decide
/-- The mask of DATA_TRAN_DONE. -/
theorem mask_dataTranDone : bitMask bitDataTranDone = 0x800 := by decide
/-- The mask of PRG_DONE. -/
theorem mask_prgDone : bitMask bitPrgDone = 0x1000 := by decide
/-- The mask of END_CMD_RES. -/
theorem mask_endCmdRes : bitMask bitEndCmdRes = 0x2000 := by decide

end Sys2Proof.Machine
end

