-- ==== Sys2Proof/Laws/Memory.lean ====
section
/-! SUPPORT. Buffer memory: what its operations do to the canonical form. -/

namespace Sys2Proof.Machine

/-- The canonical form of a memory with a cell in front. -/
theorem wf_cell {k : Nat} {c : Byte} {m : Memory} :
    Memory.wf ((k, c) :: m) = true ↔
      k < 2 ^ 32 ∧ c ≠ Config.unwrittenByte ∧ (∀ x ∈ m, k < x.1) ∧ m.wf = true := by
  simp [Memory.wf, List.all_eq_true, and_assoc]

/-- Reading through a cell that may have been left out. -/
theorem read_cons (a b : Nat) (v : Byte) (m : Memory) :
    (Memory.cons a v m).read b =
      if v = Config.unwrittenByte then m.read b else if a = b then v else m.read b := by
  by_cases h : v = Config.unwrittenByte <;> simp [Memory.cons, h, Memory.read]

/-- An address below every listed one reads as unwritten. -/
theorem read_below {m : Memory} {a : Nat} (h : ∀ x ∈ m, a < x.1) : m.read a = Config.unwrittenByte := by
  induction m with
  | nil => rfl
  | cons x m ih =>
    obtain ⟨k, c⟩ := x
    have hk : a < k := h (k, c) (by simp)
    have hm : ∀ y ∈ m, a < y.1 := fun y hy => h y (by simp [hy])
    simp [Memory.read, Nat.ne_of_gt hk, ih hm]

/-- A write lists no address but the written one anew. -/
theorem mem_write {m : Memory} {a : Nat} {v : Byte} {x : Host.Cell} (h : x ∈ m.write a v) :
    x = (a, v) ∨ x ∈ m := by
  induction m with
  | nil => by_cases hv : v = Config.unwrittenByte <;> simp_all [Memory.write, Memory.cons]
  | cons y m ih =>
    obtain ⟨k, c⟩ := y
    simp only [Memory.write] at h
    split at h
    · by_cases hv : v = Config.unwrittenByte <;> simp_all [Memory.cons]
    · split at h
      · by_cases hv : v = Config.unwrittenByte
        · simp_all [Memory.cons]
        · simp only [Memory.cons, hv, if_false, List.mem_cons] at h
          rcases h with h | h <;> simp [h]
      · rcases List.mem_cons.mp h with h | h
        · simp [h]
        · rcases ih h with h | h <;> simp [h]

/-- A cell with a smaller address in front of a canonical memory keeps it canonical. -/
theorem cons_wf {m : Memory} {a : Nat} {v : Byte} (ha : a < 2 ^ 32) (hm : m.wf = true)
    (h : ∀ x ∈ m, a < x.1) : (Memory.cons a v m).wf = true := by
  by_cases hv : v = Config.unwrittenByte
  · simpa [Memory.cons, hv] using hm
  · simpa only [Memory.cons, hv, if_false] using wf_cell.mpr ⟨ha, hv, h, hm⟩

/-- A write to an address of the buffer space keeps the canonical form. -/
theorem write_wf {m : Memory} {a : Nat} (v : Byte) (ha : a < 2 ^ 32) (hm : m.wf = true) :
    (m.write a v).wf = true := by
  induction m with
  | nil => exact cons_wf ha hm (by simp)
  | cons y m ih =>
    obtain ⟨k, c⟩ := y
    obtain ⟨hk, hc, hlt, hwf⟩ := wf_cell.mp hm
    simp only [Memory.write]
    split
    · rename_i hak
      refine cons_wf ha hm fun x hx => ?_
      rcases List.mem_cons.mp hx with hx | hx
      · simpa [hx] using hak
      · exact Nat.lt_trans hak (hlt x hx)
    · split
      · rename_i _ hak
        subst hak
        exact cons_wf ha hwf hlt
      · refine wf_cell.mpr ⟨hk, hc, fun x hx => ?_, ih hwf⟩
        rcases mem_write hx with hx | hx
        · subst hx
          show k < a
          omega
        · exact hlt x hx

/-- `MemWrite` keeps the canonical form. -/
theorem memWrite_wf {s : State} (addr : Word) (v : Byte) (h : s.mem.wf = true) :
    (memWrite addr v s).mem.wf = true :=
  write_wf v addr.isLt h

/-- Reset lists nothing, so its memory has the canonical form. -/
theorem reset_mem_wf : State.reset.mem.wf = true := rfl

end Sys2Proof.Machine
end

