-- ==== Sys2Proof/Laws/PerInstr.lean ====
section
/-! SUPPORT. Statements about every operation as syntax, one lemma per constructor. `TableMatch`: the word the encoder
gives an operation has the fixed bits of its row of spec/opcode_table.json (R116), and decodes to it again. -/

namespace Sys2Proof

/-- `mask` of the operation's row of spec/opcode_table.json. -/
def Instr.tableMask : Instr → Word
  | .exec .. => 0xFFFF6003
  | .execRd .. => 0xFFFF6003
  | .execWr .. => 0xFFFF6003
  | .setRate => 0xFFFFFFFF
  | .openHost => 0xFFFFFFFF

/-- `match` of the operation's row of spec/opcode_table.json. -/
def Instr.tableMatch : Instr → Word
  | .exec .. => 0x00000000
  | .execRd .. => 0x00002000
  | .execWr .. => 0x00006000
  | .setRate => 0x00000001
  | .openHost => 0x00000002

/-- An EXECUTE word shows its fixed bits through the mask of its row. -/
theorem encodeExecute_and_mask (data dir : Bool) (cmd : BitVec 6) (rt : RType) (crc busyf w4 : Bool) :
    encodeExecute data dir cmd rt crc busyf w4 &&& 0xFFFF6003 =
      0#17 ++ BitVec.ofBool dir ++ BitVec.ofBool data ++ 0#13 := by
  apply BitVec.eq_of_getLsbD_eq
  intro i hi
  simp only [BitVec.getLsbD_and, encodeExecute, BitVec.getLsbD_append, BitVec.getLsbD_ofBool]
  rcases i with _|_|_|_|_|_|_|_|_|_|_|_|_|_|_|_|_|_|_|_|_|_|_|_|_|_|_|_|_|_|_|_|i
  all_goals first | omega | simp

namespace Laws.TableMatch

/-- The encoder's word has the fixed bits of the operation's row. -/
def Statement (i : Instr) : Prop := encode i &&& i.tableMask = i.tableMatch

theorem exec (cmd : BitVec 6) (rtype : RType) (crc busyf w4 : Bool) : Statement (.exec cmd rtype crc busyf w4) :=
  encodeExecute_and_mask false false cmd rtype crc busyf w4

theorem execRd (cmd : BitVec 6) (rtype : RType) (crc busyf w4 : Bool) : Statement (.execRd cmd rtype crc busyf w4) :=
  encodeExecute_and_mask true false cmd rtype crc busyf w4

theorem execWr (cmd : BitVec 6) (rtype : RType) (crc busyf w4 : Bool) : Statement (.execWr cmd rtype crc busyf w4) :=
  encodeExecute_and_mask true true cmd rtype crc busyf w4

theorem setRate : Statement .setRate := rfl

theorem openHost : Statement .openHost := rfl

end Laws.TableMatch

end Sys2Proof
end

