-- ==== Sys2Proof/Laws/State.lean ====
section
/-! SUPPORT. One lemma per field per update of `State`, so that no proof unfolds a record update. -/

namespace Sys2Proof.Machine

section
variable (s : State) (x : Control)
@[simp] theorem setCtl_ctl : (s.setCtl x).ctl = x := rfl
@[simp] theorem setCtl_rq : (s.setCtl x).rq = s.rq := rfl
@[simp] theorem setCtl_flags : (s.setCtl x).flags = s.flags := rfl
@[simp] theorem setCtl_poll : (s.setCtl x).poll = s.poll := rfl
@[simp] theorem setCtl_snap : (s.setCtl x).snap = s.snap := rfl
@[simp] theorem setCtl_pump : (s.setCtl x).pump = s.pump := rfl
@[simp] theorem setCtl_asm : (s.setCtl x).asm = s.asm := rfl
@[simp] theorem setCtl_resp : (s.setCtl x).resp = s.resp := rfl
@[simp] theorem setCtl_done : (s.setCtl x).done = s.done := rfl
@[simp] theorem setCtl_rate : (s.setCtl x).rate = s.rate := rfl
@[simp] theorem setCtl_alloc : (s.setCtl x).alloc = s.alloc := rfl
@[simp] theorem setCtl_port : (s.setCtl x).port = s.port := rfl
@[simp] theorem setCtl_host : (s.setCtl x).host = s.host := rfl
@[simp] theorem setCtl_ctrl : (s.setCtl x).ctrl = s.ctrl := rfl
@[simp] theorem setCtl_env : (s.setCtl x).env = s.env := rfl
@[simp] theorem setCtl_mem : (s.setCtl x).mem = s.mem := rfl
@[simp] theorem setCtl_trace : (s.setCtl x).trace = s.trace := rfl
end

section
variable (s : State) (x : Latched)
@[simp] theorem setRq_ctl : (s.setRq x).ctl = s.ctl := rfl
@[simp] theorem setRq_rq : (s.setRq x).rq = x := rfl
@[simp] theorem setRq_flags : (s.setRq x).flags = s.flags := rfl
@[simp] theorem setRq_poll : (s.setRq x).poll = s.poll := rfl
@[simp] theorem setRq_snap : (s.setRq x).snap = s.snap := rfl
@[simp] theorem setRq_pump : (s.setRq x).pump = s.pump := rfl
@[simp] theorem setRq_asm : (s.setRq x).asm = s.asm := rfl
@[simp] theorem setRq_resp : (s.setRq x).resp = s.resp := rfl
@[simp] theorem setRq_done : (s.setRq x).done = s.done := rfl
@[simp] theorem setRq_rate : (s.setRq x).rate = s.rate := rfl
@[simp] theorem setRq_alloc : (s.setRq x).alloc = s.alloc := rfl
@[simp] theorem setRq_port : (s.setRq x).port = s.port := rfl
@[simp] theorem setRq_host : (s.setRq x).host = s.host := rfl
@[simp] theorem setRq_ctrl : (s.setRq x).ctrl = s.ctrl := rfl
@[simp] theorem setRq_env : (s.setRq x).env = s.env := rfl
@[simp] theorem setRq_mem : (s.setRq x).mem = s.mem := rfl
@[simp] theorem setRq_trace : (s.setRq x).trace = s.trace := rfl
end

section
variable (s : State) (x : Word)
@[simp] theorem setFlags_ctl : (s.setFlags x).ctl = s.ctl := rfl
@[simp] theorem setFlags_rq : (s.setFlags x).rq = s.rq := rfl
@[simp] theorem setFlags_flags : (s.setFlags x).flags = x := rfl
@[simp] theorem setFlags_poll : (s.setFlags x).poll = s.poll := rfl
@[simp] theorem setFlags_snap : (s.setFlags x).snap = s.snap := rfl
@[simp] theorem setFlags_pump : (s.setFlags x).pump = s.pump := rfl
@[simp] theorem setFlags_asm : (s.setFlags x).asm = s.asm := rfl
@[simp] theorem setFlags_resp : (s.setFlags x).resp = s.resp := rfl
@[simp] theorem setFlags_done : (s.setFlags x).done = s.done := rfl
@[simp] theorem setFlags_rate : (s.setFlags x).rate = s.rate := rfl
@[simp] theorem setFlags_alloc : (s.setFlags x).alloc = s.alloc := rfl
@[simp] theorem setFlags_port : (s.setFlags x).port = s.port := rfl
@[simp] theorem setFlags_host : (s.setFlags x).host = s.host := rfl
@[simp] theorem setFlags_ctrl : (s.setFlags x).ctrl = s.ctrl := rfl
@[simp] theorem setFlags_env : (s.setFlags x).env = s.env := rfl
@[simp] theorem setFlags_mem : (s.setFlags x).mem = s.mem := rfl
@[simp] theorem setFlags_trace : (s.setFlags x).trace = s.trace := rfl
end

section
variable (s : State) (x : Poll)
@[simp] theorem setPoll_ctl : (s.setPoll x).ctl = s.ctl := rfl
@[simp] theorem setPoll_rq : (s.setPoll x).rq = s.rq := rfl
@[simp] theorem setPoll_flags : (s.setPoll x).flags = s.flags := rfl
@[simp] theorem setPoll_poll : (s.setPoll x).poll = x := rfl
@[simp] theorem setPoll_snap : (s.setPoll x).snap = s.snap := rfl
@[simp] theorem setPoll_pump : (s.setPoll x).pump = s.pump := rfl
@[simp] theorem setPoll_asm : (s.setPoll x).asm = s.asm := rfl
@[simp] theorem setPoll_resp : (s.setPoll x).resp = s.resp := rfl
@[simp] theorem setPoll_done : (s.setPoll x).done = s.done := rfl
@[simp] theorem setPoll_rate : (s.setPoll x).rate = s.rate := rfl
@[simp] theorem setPoll_alloc : (s.setPoll x).alloc = s.alloc := rfl
@[simp] theorem setPoll_port : (s.setPoll x).port = s.port := rfl
@[simp] theorem setPoll_host : (s.setPoll x).host = s.host := rfl
@[simp] theorem setPoll_ctrl : (s.setPoll x).ctrl = s.ctrl := rfl
@[simp] theorem setPoll_env : (s.setPoll x).env = s.env := rfl
@[simp] theorem setPoll_mem : (s.setPoll x).mem = s.mem := rfl
@[simp] theorem setPoll_trace : (s.setPoll x).trace = s.trace := rfl
end

section
variable (s : State) (x : Word)
@[simp] theorem setSnap_ctl : (s.setSnap x).ctl = s.ctl := rfl
@[simp] theorem setSnap_rq : (s.setSnap x).rq = s.rq := rfl
@[simp] theorem setSnap_flags : (s.setSnap x).flags = s.flags := rfl
@[simp] theorem setSnap_poll : (s.setSnap x).poll = s.poll := rfl
@[simp] theorem setSnap_snap : (s.setSnap x).snap = x := rfl
@[simp] theorem setSnap_pump : (s.setSnap x).pump = s.pump := rfl
@[simp] theorem setSnap_asm : (s.setSnap x).asm = s.asm := rfl
@[simp] theorem setSnap_resp : (s.setSnap x).resp = s.resp := rfl
@[simp] theorem setSnap_done : (s.setSnap x).done = s.done := rfl
@[simp] theorem setSnap_rate : (s.setSnap x).rate = s.rate := rfl
@[simp] theorem setSnap_alloc : (s.setSnap x).alloc = s.alloc := rfl
@[simp] theorem setSnap_port : (s.setSnap x).port = s.port := rfl
@[simp] theorem setSnap_host : (s.setSnap x).host = s.host := rfl
@[simp] theorem setSnap_ctrl : (s.setSnap x).ctrl = s.ctrl := rfl
@[simp] theorem setSnap_env : (s.setSnap x).env = s.env := rfl
@[simp] theorem setSnap_mem : (s.setSnap x).mem = s.mem := rfl
@[simp] theorem setSnap_trace : (s.setSnap x).trace = s.trace := rfl
end

section
variable (s : State) (x : Pump)
@[simp] theorem setPump_ctl : (s.setPump x).ctl = s.ctl := rfl
@[simp] theorem setPump_rq : (s.setPump x).rq = s.rq := rfl
@[simp] theorem setPump_flags : (s.setPump x).flags = s.flags := rfl
@[simp] theorem setPump_poll : (s.setPump x).poll = s.poll := rfl
@[simp] theorem setPump_snap : (s.setPump x).snap = s.snap := rfl
@[simp] theorem setPump_pump : (s.setPump x).pump = x := rfl
@[simp] theorem setPump_asm : (s.setPump x).asm = s.asm := rfl
@[simp] theorem setPump_resp : (s.setPump x).resp = s.resp := rfl
@[simp] theorem setPump_done : (s.setPump x).done = s.done := rfl
@[simp] theorem setPump_rate : (s.setPump x).rate = s.rate := rfl
@[simp] theorem setPump_alloc : (s.setPump x).alloc = s.alloc := rfl
@[simp] theorem setPump_port : (s.setPump x).port = s.port := rfl
@[simp] theorem setPump_host : (s.setPump x).host = s.host := rfl
@[simp] theorem setPump_ctrl : (s.setPump x).ctrl = s.ctrl := rfl
@[simp] theorem setPump_env : (s.setPump x).env = s.env := rfl
@[simp] theorem setPump_mem : (s.setPump x).mem = s.mem := rfl
@[simp] theorem setPump_trace : (s.setPump x).trace = s.trace := rfl
end

section
variable (s : State) (x : Reassembly)
@[simp] theorem setAsm_ctl : (s.setAsm x).ctl = s.ctl := rfl
@[simp] theorem setAsm_rq : (s.setAsm x).rq = s.rq := rfl
@[simp] theorem setAsm_flags : (s.setAsm x).flags = s.flags := rfl
@[simp] theorem setAsm_poll : (s.setAsm x).poll = s.poll := rfl
@[simp] theorem setAsm_snap : (s.setAsm x).snap = s.snap := rfl
@[simp] theorem setAsm_pump : (s.setAsm x).pump = s.pump := rfl
@[simp] theorem setAsm_asm : (s.setAsm x).asm = x := rfl
@[simp] theorem setAsm_resp : (s.setAsm x).resp = s.resp := rfl
@[simp] theorem setAsm_done : (s.setAsm x).done = s.done := rfl
@[simp] theorem setAsm_rate : (s.setAsm x).rate = s.rate := rfl
@[simp] theorem setAsm_alloc : (s.setAsm x).alloc = s.alloc := rfl
@[simp] theorem setAsm_port : (s.setAsm x).port = s.port := rfl
@[simp] theorem setAsm_host : (s.setAsm x).host = s.host := rfl
@[simp] theorem setAsm_ctrl : (s.setAsm x).ctrl = s.ctrl := rfl
@[simp] theorem setAsm_env : (s.setAsm x).env = s.env := rfl
@[simp] theorem setAsm_mem : (s.setAsm x).mem = s.mem := rfl
@[simp] theorem setAsm_trace : (s.setAsm x).trace = s.trace := rfl
end

section
variable (s : State) (x : Response)
@[simp] theorem setResp_ctl : (s.setResp x).ctl = s.ctl := rfl
@[simp] theorem setResp_rq : (s.setResp x).rq = s.rq := rfl
@[simp] theorem setResp_flags : (s.setResp x).flags = s.flags := rfl
@[simp] theorem setResp_poll : (s.setResp x).poll = s.poll := rfl
@[simp] theorem setResp_snap : (s.setResp x).snap = s.snap := rfl
@[simp] theorem setResp_pump : (s.setResp x).pump = s.pump := rfl
@[simp] theorem setResp_asm : (s.setResp x).asm = s.asm := rfl
@[simp] theorem setResp_resp : (s.setResp x).resp = x := rfl
@[simp] theorem setResp_done : (s.setResp x).done = s.done := rfl
@[simp] theorem setResp_rate : (s.setResp x).rate = s.rate := rfl
@[simp] theorem setResp_alloc : (s.setResp x).alloc = s.alloc := rfl
@[simp] theorem setResp_port : (s.setResp x).port = s.port := rfl
@[simp] theorem setResp_host : (s.setResp x).host = s.host := rfl
@[simp] theorem setResp_ctrl : (s.setResp x).ctrl = s.ctrl := rfl
@[simp] theorem setResp_env : (s.setResp x).env = s.env := rfl
@[simp] theorem setResp_mem : (s.setResp x).mem = s.mem := rfl
@[simp] theorem setResp_trace : (s.setResp x).trace = s.trace := rfl
end

section
variable (s : State) (x : Completion)
@[simp] theorem setDone_ctl : (s.setDone x).ctl = s.ctl := rfl
@[simp] theorem setDone_rq : (s.setDone x).rq = s.rq := rfl
@[simp] theorem setDone_flags : (s.setDone x).flags = s.flags := rfl
@[simp] theorem setDone_poll : (s.setDone x).poll = s.poll := rfl
@[simp] theorem setDone_snap : (s.setDone x).snap = s.snap := rfl
@[simp] theorem setDone_pump : (s.setDone x).pump = s.pump := rfl
@[simp] theorem setDone_asm : (s.setDone x).asm = s.asm := rfl
@[simp] theorem setDone_resp : (s.setDone x).resp = s.resp := rfl
@[simp] theorem setDone_done : (s.setDone x).done = x := rfl
@[simp] theorem setDone_rate : (s.setDone x).rate = s.rate := rfl
@[simp] theorem setDone_alloc : (s.setDone x).alloc = s.alloc := rfl
@[simp] theorem setDone_port : (s.setDone x).port = s.port := rfl
@[simp] theorem setDone_host : (s.setDone x).host = s.host := rfl
@[simp] theorem setDone_ctrl : (s.setDone x).ctrl = s.ctrl := rfl
@[simp] theorem setDone_env : (s.setDone x).env = s.env := rfl
@[simp] theorem setDone_mem : (s.setDone x).mem = s.mem := rfl
@[simp] theorem setDone_trace : (s.setDone x).trace = s.trace := rfl
end

section
variable (s : State) (x : Divider)
@[simp] theorem setRate_ctl : (s.setRate x).ctl = s.ctl := rfl
@[simp] theorem setRate_rq : (s.setRate x).rq = s.rq := rfl
@[simp] theorem setRate_flags : (s.setRate x).flags = s.flags := rfl
@[simp] theorem setRate_poll : (s.setRate x).poll = s.poll := rfl
@[simp] theorem setRate_snap : (s.setRate x).snap = s.snap := rfl
@[simp] theorem setRate_pump : (s.setRate x).pump = s.pump := rfl
@[simp] theorem setRate_asm : (s.setRate x).asm = s.asm := rfl
@[simp] theorem setRate_resp : (s.setRate x).resp = s.resp := rfl
@[simp] theorem setRate_done : (s.setRate x).done = s.done := rfl
@[simp] theorem setRate_rate : (s.setRate x).rate = x := rfl
@[simp] theorem setRate_alloc : (s.setRate x).alloc = s.alloc := rfl
@[simp] theorem setRate_port : (s.setRate x).port = s.port := rfl
@[simp] theorem setRate_host : (s.setRate x).host = s.host := rfl
@[simp] theorem setRate_ctrl : (s.setRate x).ctrl = s.ctrl := rfl
@[simp] theorem setRate_env : (s.setRate x).env = s.env := rfl
@[simp] theorem setRate_mem : (s.setRate x).mem = s.mem := rfl
@[simp] theorem setRate_trace : (s.setRate x).trace = s.trace := rfl
end

section
variable (s : State) (x : AllocDraw)
@[simp] theorem setAlloc_ctl : (s.setAlloc x).ctl = s.ctl := rfl
@[simp] theorem setAlloc_rq : (s.setAlloc x).rq = s.rq := rfl
@[simp] theorem setAlloc_flags : (s.setAlloc x).flags = s.flags := rfl
@[simp] theorem setAlloc_poll : (s.setAlloc x).poll = s.poll := rfl
@[simp] theorem setAlloc_snap : (s.setAlloc x).snap = s.snap := rfl
@[simp] theorem setAlloc_pump : (s.setAlloc x).pump = s.pump := rfl
@[simp] theorem setAlloc_asm : (s.setAlloc x).asm = s.asm := rfl
@[simp] theorem setAlloc_resp : (s.setAlloc x).resp = s.resp := rfl
@[simp] theorem setAlloc_done : (s.setAlloc x).done = s.done := rfl
@[simp] theorem setAlloc_rate : (s.setAlloc x).rate = s.rate := rfl
@[simp] theorem setAlloc_alloc : (s.setAlloc x).alloc = x := rfl
@[simp] theorem setAlloc_port : (s.setAlloc x).port = s.port := rfl
@[simp] theorem setAlloc_host : (s.setAlloc x).host = s.host := rfl
@[simp] theorem setAlloc_ctrl : (s.setAlloc x).ctrl = s.ctrl := rfl
@[simp] theorem setAlloc_env : (s.setAlloc x).env = s.env := rfl
@[simp] theorem setAlloc_mem : (s.setAlloc x).mem = s.mem := rfl
@[simp] theorem setAlloc_trace : (s.setAlloc x).trace = s.trace := rfl
end

section
variable (s : State) (x : Operands)
@[simp] theorem setPort_ctl : (s.setPort x).ctl = s.ctl := rfl
@[simp] theorem setPort_rq : (s.setPort x).rq = s.rq := rfl
@[simp] theorem setPort_flags : (s.setPort x).flags = s.flags := rfl
@[simp] theorem setPort_poll : (s.setPort x).poll = s.poll := rfl
@[simp] theorem setPort_snap : (s.setPort x).snap = s.snap := rfl
@[simp] theorem setPort_pump : (s.setPort x).pump = s.pump := rfl
@[simp] theorem setPort_asm : (s.setPort x).asm = s.asm := rfl
@[simp] theorem setPort_resp : (s.setPort x).resp = s.resp := rfl
@[simp] theorem setPort_done : (s.setPort x).done = s.done := rfl
@[simp] theorem setPort_rate : (s.setPort x).rate = s.rate := rfl
@[simp] theorem setPort_alloc : (s.setPort x).alloc = s.alloc := rfl
@[simp] theorem setPort_port : (s.setPort x).port = x := rfl
@[simp] theorem setPort_host : (s.setPort x).host = s.host := rfl
@[simp] theorem setPort_ctrl : (s.setPort x).ctrl = s.ctrl := rfl
@[simp] theorem setPort_env : (s.setPort x).env = s.env := rfl
@[simp] theorem setPort_mem : (s.setPort x).mem = s.mem := rfl
@[simp] theorem setPort_trace : (s.setPort x).trace = s.trace := rfl
end

section
variable (s : State) (x : List HostMove)
@[simp] theorem setHost_ctl : (s.setHost x).ctl = s.ctl := rfl
@[simp] theorem setHost_rq : (s.setHost x).rq = s.rq := rfl
@[simp] theorem setHost_flags : (s.setHost x).flags = s.flags := rfl
@[simp] theorem setHost_poll : (s.setHost x).poll = s.poll := rfl
@[simp] theorem setHost_snap : (s.setHost x).snap = s.snap := rfl
@[simp] theorem setHost_pump : (s.setHost x).pump = s.pump := rfl
@[simp] theorem setHost_asm : (s.setHost x).asm = s.asm := rfl
@[simp] theorem setHost_resp : (s.setHost x).resp = s.resp := rfl
@[simp] theorem setHost_done : (s.setHost x).done = s.done := rfl
@[simp] theorem setHost_rate : (s.setHost x).rate = s.rate := rfl
@[simp] theorem setHost_alloc : (s.setHost x).alloc = s.alloc := rfl
@[simp] theorem setHost_port : (s.setHost x).port = s.port := rfl
@[simp] theorem setHost_host : (s.setHost x).host = x := rfl
@[simp] theorem setHost_ctrl : (s.setHost x).ctrl = s.ctrl := rfl
@[simp] theorem setHost_env : (s.setHost x).env = s.env := rfl
@[simp] theorem setHost_mem : (s.setHost x).mem = s.mem := rfl
@[simp] theorem setHost_trace : (s.setHost x).trace = s.trace := rfl
end

section
variable (s : State) (x : CtrlRegs)
@[simp] theorem setCtrl_ctl : (s.setCtrl x).ctl = s.ctl := rfl
@[simp] theorem setCtrl_rq : (s.setCtrl x).rq = s.rq := rfl
@[simp] theorem setCtrl_flags : (s.setCtrl x).flags = s.flags := rfl
@[simp] theorem setCtrl_poll : (s.setCtrl x).poll = s.poll := rfl
@[simp] theorem setCtrl_snap : (s.setCtrl x).snap = s.snap := rfl
@[simp] theorem setCtrl_pump : (s.setCtrl x).pump = s.pump := rfl
@[simp] theorem setCtrl_asm : (s.setCtrl x).asm = s.asm := rfl
@[simp] theorem setCtrl_resp : (s.setCtrl x).resp = s.resp := rfl
@[simp] theorem setCtrl_done : (s.setCtrl x).done = s.done := rfl
@[simp] theorem setCtrl_rate : (s.setCtrl x).rate = s.rate := rfl
@[simp] theorem setCtrl_alloc : (s.setCtrl x).alloc = s.alloc := rfl
@[simp] theorem setCtrl_port : (s.setCtrl x).port = s.port := rfl
@[simp] theorem setCtrl_host : (s.setCtrl x).host = s.host := rfl
@[simp] theorem setCtrl_ctrl : (s.setCtrl x).ctrl = x := rfl
@[simp] theorem setCtrl_env : (s.setCtrl x).env = s.env := rfl
@[simp] theorem setCtrl_mem : (s.setCtrl x).mem = s.mem := rfl
@[simp] theorem setCtrl_trace : (s.setCtrl x).trace = s.trace := rfl
end

section
variable (s : State) (x : Env)
@[simp] theorem setEnv_ctl : (s.setEnv x).ctl = s.ctl := rfl
@[simp] theorem setEnv_rq : (s.setEnv x).rq = s.rq := rfl
@[simp] theorem setEnv_flags : (s.setEnv x).flags = s.flags := rfl
@[simp] theorem setEnv_poll : (s.setEnv x).poll = s.poll := rfl
@[simp] theorem setEnv_snap : (s.setEnv x).snap = s.snap := rfl
@[simp] theorem setEnv_pump : (s.setEnv x).pump = s.pump := rfl
@[simp] theorem setEnv_asm : (s.setEnv x).asm = s.asm := rfl
@[simp] theorem setEnv_resp : (s.setEnv x).resp = s.resp := rfl
@[simp] theorem setEnv_done : (s.setEnv x).done = s.done := rfl
@[simp] theorem setEnv_rate : (s.setEnv x).rate = s.rate := rfl
@[simp] theorem setEnv_alloc : (s.setEnv x).alloc = s.alloc := rfl
@[simp] theorem setEnv_port : (s.setEnv x).port = s.port := rfl
@[simp] theorem setEnv_host : (s.setEnv x).host = s.host := rfl
@[simp] theorem setEnv_ctrl : (s.setEnv x).ctrl = s.ctrl := rfl
@[simp] theorem setEnv_env : (s.setEnv x).env = x := rfl
@[simp] theorem setEnv_mem : (s.setEnv x).mem = s.mem := rfl
@[simp] theorem setEnv_trace : (s.setEnv x).trace = s.trace := rfl
end

section
variable (s : State) (x : Memory)
@[simp] theorem setMem_ctl : (s.setMem x).ctl = s.ctl := rfl
@[simp] theorem setMem_rq : (s.setMem x).rq = s.rq := rfl
@[simp] theorem setMem_flags : (s.setMem x).flags = s.flags := rfl
@[simp] theorem setMem_poll : (s.setMem x).poll = s.poll := rfl
@[simp] theorem setMem_snap : (s.setMem x).snap = s.snap := rfl
@[simp] theorem setMem_pump : (s.setMem x).pump = s.pump := rfl
@[simp] theorem setMem_asm : (s.setMem x).asm = s.asm := rfl
@[simp] theorem setMem_resp : (s.setMem x).resp = s.resp := rfl
@[simp] theorem setMem_done : (s.setMem x).done = s.done := rfl
@[simp] theorem setMem_rate : (s.setMem x).rate = s.rate := rfl
@[simp] theorem setMem_alloc : (s.setMem x).alloc = s.alloc := rfl
@[simp] theorem setMem_port : (s.setMem x).port = s.port := rfl
@[simp] theorem setMem_host : (s.setMem x).host = s.host := rfl
@[simp] theorem setMem_ctrl : (s.setMem x).ctrl = s.ctrl := rfl
@[simp] theorem setMem_env : (s.setMem x).env = s.env := rfl
@[simp] theorem setMem_mem : (s.setMem x).mem = x := rfl
@[simp] theorem setMem_trace : (s.setMem x).trace = s.trace := rfl
end

section
variable (s : State) (x : List Event)
@[simp] theorem setTrace_ctl : (s.setTrace x).ctl = s.ctl := rfl
@[simp] theorem setTrace_rq : (s.setTrace x).rq = s.rq := rfl
@[simp] theorem setTrace_flags : (s.setTrace x).flags = s.flags := rfl
@[simp] theorem setTrace_poll : (s.setTrace x).poll = s.poll := rfl
@[simp] theorem setTrace_snap : (s.setTrace x).snap = s.snap := rfl
@[simp] theorem setTrace_pump : (s.setTrace x).pump = s.pump := rfl
@[simp] theorem setTrace_asm : (s.setTrace x).asm = s.asm := rfl
@[simp] theorem setTrace_resp : (s.setTrace x).resp = s.resp := rfl
@[simp] theorem setTrace_done : (s.setTrace x).done = s.done := rfl
@[simp] theorem setTrace_rate : (s.setTrace x).rate = s.rate := rfl
@[simp] theorem setTrace_alloc : (s.setTrace x).alloc = s.alloc := rfl
@[simp] theorem setTrace_port : (s.setTrace x).port = s.port := rfl
@[simp] theorem setTrace_host : (s.setTrace x).host = s.host := rfl
@[simp] theorem setTrace_ctrl : (s.setTrace x).ctrl = s.ctrl := rfl
@[simp] theorem setTrace_env : (s.setTrace x).env = s.env := rfl
@[simp] theorem setTrace_mem : (s.setTrace x).mem = s.mem := rfl
@[simp] theorem setTrace_trace : (s.setTrace x).trace = x := rfl
end

end Sys2Proof.Machine
end

