-- ==== Sys2Proof/Laws/Step.lean ====
section
/-! SUPPORT. What a meaning and a step of the machine can do, said once; and runs. -/

namespace Sys2Proof.Machine

/-! ### The meanings -/

/-- A meaning is `serve` at the operation's own word, first label and labels. -/
theorem exec_eq_serve (i : Instr) (s : State) :
    exec i s = serve (encode i) i.start i.runs (i.wellFormed s.port) s := by
  cases i <;> rfl

/-- An idle block accepts a well-formed request. -/
theorem exec_idle {i : Instr} {s : State} (hb : s.ctl.busy = false) (hw : i.wellFormed s.port = true) :
    exec i s = .next (accept (encode i) i.start s) := by
  simp [exec_eq_serve, serve, hb, hw]

/-- A busy block carries its own request one step on. -/
theorem exec_busy {i : Instr} {s : State} (hb : s.ctl.busy = true) (hw : s.rq.req = encode i)
    (hr : i.runs s.ctl.seq = true) : exec i s = .next (procStep s) := by
  simp [exec_eq_serve, serve, hb, hw, hr]

/-- A meaning that answers a next state accepted its request or performed the step at SEQ. -/
theorem exec_cases {i : Instr} {s t : State} (h : exec i s = .next t) :
    (s.ctl.busy = true ∧ s.rq.req = encode i ∧ i.runs s.ctl.seq = true ∧ t = procStep s) ∨
      (s.ctl.busy = false ∧ i.wellFormed s.port = true ∧ t = accept (encode i) i.start s) := by
  rw [exec_eq_serve] at h
  unfold serve at h
  repeat' split at h
  all_goals cases h
  · exact .inl ⟨‹_›, ‹_›, ‹_›, rfl⟩
  · exact .inr ⟨by simp_all, ‹_›, rfl⟩

/-! ### Steps -/

/-- With an idle host a busy block performs the step at SEQ. -/
theorem step_busy {i : Instr} {s : State} (hb : s.ctl.busy = true) (hh : s.host = [])
    (hd : decode s.rq.req = .ok i) (hr : i.runs s.ctl.seq = true) : step s = .next (procStep s) := by
  simp [step, machineStep, hh, advance, hb, runWord, hd, exec_busy hb (encode_of_decode hd).symm hr]

/-- The latched word of a busy block in order decodes to an operation that runs SEQ and every return label. -/
theorem own_of_seqInv {s : State} (hb : s.ctl.busy = true) (h : seqInv s = true) :
    nested s.ctl.seq s.ctl.stk = true ∧
      ∃ i, decode s.rq.req = .ok i ∧ i.runs s.ctl.seq = true ∧ ∀ l ∈ s.ctl.stk, i.runs l = true := by
  simp only [seqInv, hb, if_true, Bool.and_eq_true, ownLabels] at h
  refine ⟨h.1, ?_⟩
  have h2 := h.2
  split at h2
  · rename_i i hi
    simp only [Bool.and_eq_true, List.all_eq_true] at h2
    exact ⟨i, hi, h2.1, h2.2⟩
  · cases h2

/-- A serving block performs the step at SEQ. -/
theorem step_serving {s : State} (h : Serving s) : step s = .next (procStep s) := by
  obtain ⟨_, i, hd, hr, _⟩ := own_of_seqInv h.busy h.inv
  exact step_busy h.busy h.quiet hd hr

/-- What the block's own move can be. -/
theorem advance_cases {s t : State} (h : advance s = .next t) :
    (s.ctl.busy = false ∧ t = s) ∨
      (s.ctl.busy = true ∧ ∃ i, decode s.rq.req = .ok i ∧ i.runs s.ctl.seq = true ∧ t = procStep s) := by
  unfold advance at h
  split at h
  · rename_i hb
    unfold runWord at h
    split at h
    · rename_i i hi
      rcases exec_cases h with ⟨_, _, hr, ht⟩ | ⟨hn, _⟩
      · exact .inr ⟨hb, i, hi, hr, ht⟩
      · rw [hb] at hn
        cases hn
    · cases h
  · cases h
    exact .inl ⟨by simp_all, rfl⟩

/-- What presenting a request to an idle block can be. -/
theorem present_cases {r : Request} {s t : State} (hb : s.ctl.busy = false) (h : present r s = .next t) :
    ∃ i, decode r.req = .ok i ∧ i.wellFormed r.operands = true ∧
      t = accept r.req i.start (s.setPort r.operands) := by
  unfold present runWord at h
  split at h
  · rename_i i hi
    rcases exec_cases h with ⟨hn, _⟩ | ⟨_, hw, ht⟩
    · simp [hb] at hn
    · rw [encode_of_decode hi] at ht
      exact ⟨i, hi, hw, ht⟩
  · cases h

/-- Everything a step that answers a next state can have done: the host's moves left are `hs`, and the block waited,
performed the step at SEQ, accepted a request, was reset, or the host wrote a byte. -/
theorem step_cases {s t : State} (h : step s = .next t) :
    ∃ hs,
      (s.ctl.busy = false ∧ t = s.setHost hs) ∨
      (s.ctl.busy = true ∧ t = procStep (s.setHost hs) ∧
        ∃ i, decode s.rq.req = .ok i ∧ i.runs s.ctl.seq = true) ∨
      (s.ctl.busy = false ∧ ∃ (r : Request) (i : Instr), decode r.req = .ok i ∧ i.wellFormed r.operands = true ∧
        t = accept r.req i.start ((s.setHost hs).setPort r.operands)) ∨
      (s.host = .reset :: hs ∧ t = blockReset (s.setHost hs)) ∨
      (∃ a v, s.host = .store a v :: hs ∧ s.owns a = false ∧
        t = (s.setHost hs).setMem (s.mem.write a.toNat v)) := by
  have self : s.setHost s.host = s := rfl
  unfold step machineStep at h
  split at h
  · refine ⟨s.host, ?_⟩
    rcases advance_cases h with ⟨hb, ht⟩ | ⟨hb, i, hd, hr, ht⟩
    · exact .inl ⟨hb, ht⟩
    · exact .inr (.inl ⟨hb, ht, i, hd, hr⟩)
  · rename_i r rest hh
    split at h
    · refine ⟨s.host, ?_⟩
      rcases advance_cases h with ⟨hb, ht⟩ | ⟨hb, i, hd, hr, ht⟩
      · exact .inl ⟨hb, ht⟩
      · exact .inr (.inl ⟨hb, ht, i, hd, hr⟩)
    · rename_i hb
      have hb : s.ctl.busy = false := by simpa using hb
      obtain ⟨i, hd, hw, ht⟩ := present_cases (s := s.setHost rest) hb h
      exact ⟨rest, .inr (.inr (.inl ⟨hb, r, i, hd, hw, ht⟩))⟩
  · rename_i r rest hh
    split at h
    · cases h
    · rename_i hb
      have hb : s.ctl.busy = false := by simpa using hb
      obtain ⟨i, hd, hw, ht⟩ := present_cases (s := s.setHost rest) hb h
      exact ⟨rest, .inr (.inr (.inl ⟨hb, r, i, hd, hw, ht⟩))⟩
  · rename_i rest hh
    cases h
    exact ⟨rest, .inr (.inr (.inr (.inl ⟨hh, rfl⟩)))⟩
  · rename_i a v rest hh
    unfold hostStore at h
    split at h
    · cases h
    · rename_i ho
      cases h
      exact ⟨rest, .inr (.inr (.inr (.inr ⟨a, v, hh, by simpa [State.owns, State.data] using ho, rfl⟩)))⟩
  · rename_i rest hh
    refine ⟨rest, ?_⟩
    rcases advance_cases h with ⟨hb, ht⟩ | ⟨hb, i, hd, hr, ht⟩
    · exact .inl ⟨hb, ht⟩
    · exact .inr (.inl ⟨hb, ht, i, hd, hr⟩)

/-! ### What no procedure touches -/

/-- A step of a procedure leaves the latched request, the port and the host's moves alone (R43). -/
theorem procStep_keeps (s : State) :
    (procStep s).rq = s.rq ∧ (procStep s).port = s.port ∧ (procStep s).host = s.host := by
  unfold procStep
  split <;> rename_i h
  · exact ⟨rfl, rfl, rfl⟩
  all_goals
    rename_i l
    cases l <;>
      simp [executeStep, callPump, stopClockStep, startClockStep, awaitStep, issueStep, decodeStep, readRa, readRb,
        readRc, assemble, readPumpStep, writePumpStep, startPump, startChunk, readRxfifo, fetchByte, advanceByte,
        endChunk, signalPartial, setRateStep, openHostStep, openEntry, drawAlloc, apply_ite State.rq,
        apply_ite State.port, apply_ite State.host]

/-! ### Runs -/

/-- No step. -/
@[simp] theorem run_zero (s : State) : run 0 s = .next s := rfl

/-- One step, then the rest. -/
theorem run_succ {k : Nat} {s t : State} (h : step s = .next t) : run (k + 1) s = run k t := by
  have : Sys2Proof.core.step s = Host.Outcome.next t := h
  simp only [run, Host.Core.run]
  rw [this]

/-- A run of `m` steps followed by a run of `n`. -/
theorem run_add {m n : Nat} {s t : State} (h : run m s = .next t) : run (m + n) s = run n t := by
  induction m generalizing s with
  | zero => cases h; rw [Nat.zero_add]
  | succ m ih =>
    have hs : ∃ u, step s = .next u ∧ run m u = .next t := by
      simp only [run, Host.Core.run] at h
      split at h
      · exact ⟨_, ‹_›, h⟩
      · cases h
      · cases h
    obtain ⟨u, hu, hr⟩ := hs
    rw [Nat.succ_add, run_succ hu, ih hr]

/-- A serving block's run begins with the step at SEQ. -/
theorem run_serving {k : Nat} {s : State} (h : Serving s) : run (k + 1) s = run k (procStep s) :=
  run_succ (step_serving h)

end Sys2Proof.Machine
end

