-- ==== Sys2Proof/Laws/Sequence.lean ====
section
/-! SUPPORT. What the four moves of SEQ (a step within a procedure, a call, a return, a raise) do to the sequencing
invariant, said once for all procedures. -/

namespace Sys2Proof.Machine

/-- A call stack's tail, below a return label, is one that calls build. -/
theorem nested_suffix {l back : Label} {inner stk : List Label} (h : nested l (inner ++ back :: stk) = true) :
    nested back stk = true := by
  induction inner generalizing l with
  | nil =>
    simp only [List.nil_append, nested, Bool.and_eq_true] at h
    exact h.2
  | cons x inner ih =>
    simp only [List.cons_append, nested, Bool.and_eq_true] at h
    exact ih h.2

/-- Two labels of one procedure nest in the same stacks. -/
theorem nested_same {l l' : Label} (ho : l.outermost = l'.outermost) (hr : ∀ b, l.returnsTo b = l'.returnsTo b)
    (stk : List Label) (h : nested l stk = true) : nested l' stk = true := by
  cases stk with
  | nil => simpa only [nested, ← ho] using h
  | cons b stk => simpa only [nested, ← hr] using h

/-- The sequencing invariant of a busy block. -/
theorem seqInv_busy {s : State} (hb : s.ctl.busy = true) :
    seqInv s = true ↔
      nested s.ctl.seq s.ctl.stk = true ∧
        ∃ i, decode s.rq.req = .ok i ∧ i.runs s.ctl.seq = true ∧ ∀ l ∈ s.ctl.stk, i.runs l = true := by
  refine ⟨own_of_seqInv hb, ?_⟩
  rintro ⟨hn, i, hd, hr, ha⟩
  simp only [seqInv, hb, if_true, ownLabels, hd, hn, hr, Bool.true_and, List.all_eq_true]
  exact ha

/-- The sequencing invariant rests on the control registers and the latched request alone. -/
theorem seqInv_congr {s t : State} (hc : t.ctl = s.ctl) (hq : t.rq = s.rq) : seqInv t = seqInv s := by
  simp only [seqInv, ownLabels, hc, hq]

/-- Being in order in the service of a request rests on the same registers. -/
theorem serving_congr {s t : State} (h : Serving s) (hc : t.ctl = s.ctl) (hq : t.rq = s.rq) (hh : t.host = []) :
    Serving t :=
  ⟨by rw [hc]; exact h.busy, hh, by rw [seqInv_congr hc hq]; exact h.inv⟩

/-- An idle block with an empty stack is in order. -/
theorem seqInv_idle {s : State} (h : s.ctl = { seq := .idle, stk := [], busy := false }) : seqInv s = true := by
  simp [seqInv, h]

/-- A return keeps the block in order. -/
theorem ret_seqInv {s : State} (hb : s.ctl.busy = true) (h : seqInv s = true) : seqInv (ret s) = true := by
  rcases ret_cases s with ⟨_, he⟩ | ⟨back, stk, hs, he⟩
  · rw [he]
    exact seqInv_idle rfl
  · obtain ⟨hn, i, hd, hr, ha⟩ := own_of_seqInv hb h
    rw [he]
    refine (seqInv_busy (by simp [hb])).mpr ?_
    rw [hs] at hn ha
    simp only [nested, Bool.and_eq_true] at hn
    exact ⟨hn.2, i, hd, ha _ (by simp), fun l hl => ha l (List.mem_cons_of_mem _ hl)⟩

/-- A raise keeps the block in order. -/
theorem raise_seqInv {e : Err} {s : State} (hb : s.ctl.busy = true) (h : seqInv s = true) :
    seqInv (raise e s) = true := by
  rcases raise_cases e s with ⟨_, he⟩ | ⟨back, stk, hs, he⟩
  · rw [he]
    exact seqInv_idle rfl
  · obtain ⟨hn, i, hd, hr, ha⟩ := own_of_seqInv hb h
    obtain ⟨_, inner, hst⟩ := catcher_some hs
    rw [he]
    refine (seqInv_busy (by simp [hb])).mpr ?_
    rw [hst] at hn ha
    exact ⟨nested_suffix hn, i, hd, ha _ (by simp),
      fun l hl => ha l (List.mem_append_right _ (List.mem_cons_of_mem _ hl))⟩

/-- A step to a label of the same procedure, which the operation runs too, keeps the block in order. -/
theorem move_seqInv {s t : State} {l : Label} (hb : s.ctl.busy = true) (h : seqInv s = true)
    (hc : t.ctl = { s.ctl with seq := l }) (hq : t.rq = s.rq)
    (hn : ∀ stk, nested s.ctl.seq stk = true → nested l stk = true)
    (hr : ∀ i, decode s.rq.req = .ok i → i.runs s.ctl.seq = true → i.runs l = true) : seqInv t = true := by
  obtain ⟨h1, i, hd, hi, ha⟩ := own_of_seqInv hb h
  rw [seqInv_busy (by simp [hc, hb])]
  simp only [hc, hq]
  exact ⟨hn _ h1, i, hd, hr i hd hi, ha⟩

/-- A call of a procedure that the operation runs keeps the block in order. -/
theorem call_seqInv {s t : State} {l back : Label} (hb : s.ctl.busy = true) (h : seqInv s = true)
    (hc : t.ctl = { s.ctl with seq := l, stk := back :: s.ctl.stk }) (hq : t.rq = s.rq)
    (hl : l.returnsTo back = true) (hn : ∀ stk, nested s.ctl.seq stk = true → nested back stk = true)
    (hr : ∀ i, decode s.rq.req = .ok i → i.runs s.ctl.seq = true → i.runs l = true ∧ i.runs back = true) :
    seqInv t = true := by
  obtain ⟨h1, i, hd, hi, ha⟩ := own_of_seqInv hb h
  rw [seqInv_busy (by simp [hc, hb])]
  simp only [hc, hq, nested, hl, Bool.true_and]
  refine ⟨hn _ h1, i, hd, (hr i hd hi).1, fun l' hl' => ?_⟩
  rcases List.mem_cons.mp hl' with rfl | hm
  · exact (hr i hd hi).2
  · exact ha _ hm

/-- The fields of the word an operation is decoded from: `DATA` and `DIR` of a word that runs a pump (R137). -/
theorem data_of_decode {w : Word} {i : Instr} (h : decode w = .ok i) (hr : i.runs (.execute .e0) = true) :
    fieldData w = i.hasData ∧ (i.runs (.readPump .p0) = true ↔ fieldData w = true ∧ fieldDir w = false) ∧
      (i.runs (.writePump .w0) = true ↔ fieldData w = true ∧ fieldDir w = true) := by
  unfold decode decodeExecute at h
  repeat' split at h
  all_goals cases h
  all_goals simp_all [Instr.runs, Instr.hasData, inExec, inExecRd, inExecWr, inSetRate, inOpenHost]

end Sys2Proof.Machine
end

