-- ==== Sys2Proof/Tests/Slice0.lean ====
section
/-! SUPPORT. The model's own tests: well-formedness, decoding of words written out from spec/30_encoding.md R112, steps
with values from spec/95_test_vectors.md, and for every statement with hypotheses a state that meets them. -/

namespace Sys2Proof.Tests

open Sys2Proof Sys2Proof.Machine

/-! ### Small states -/

/-- Idle, with operands on the port and answers pending. -/
def idleWith (p : Operands) (stat res rx : List Word) (alloc : List AllocDraw) : State :=
  (State.reset.setPort p).setEnv { State.reset.env with stat := stat, res := res, rx := rx, alloc := alloc }

/-- Busy with an operation, at a label with a call stack. -/
def busyAt (i : Instr) (seq : Label) (stk : List Label) : State :=
  (State.reset.setRq { State.reset.rq with req := encode i }).setCtl { seq := seq, stk := stk, busy := true }

/-- The same with STAT answers pending. -/
def busyStat (i : Instr) (seq : Label) (stk : List Label) (stat : List Word) : State :=
  let s := busyAt i seq stk
  s.setEnv { s.env with stat := stat }

/-- CMD2, a checked long response (table 2.1, first row). -/
def cmd2 : Instr := .exec 2 .long true false false
/-- CMD17, a read (table 2.1). -/
def cmd17 : Instr := .execRd 17 .short true false true
/-- CMD24, a write (table 2.1). -/
def cmd24 : Instr := .execWr 24 .short true false false

/-- One block of `n` bytes at `buf`. -/
def oneBlock (buf : Word) (n : Half) : Operands := { Operands.zero with blocks := 1, blksize := n, buf := buf }

/-- A rate. -/
def rate (hz : Word) : Operands := { Operands.zero with hz := hz }

/-- A poll answered at its first read. -/
theorem pollOk_one {m v : Word} {p : Polarity} (h : met v m p = true) : PollOk m p [v] :=
  ⟨[], v, rfl, by decide, by simp, h⟩

/-- A poll answered at its last read. -/
theorem pollOk_last {m u v : Word} {p : Polarity} (hu : met u m p = false) (h : met v m p = true) :
    PollOk m p (List.replicate 99 u ++ [v]) :=
  ⟨List.replicate 99 u, v, rfl, by simp [Config.pollMax], fun _ hx => List.eq_of_mem_replicate hx ▸ hu, h⟩

/-- A poll never answered. -/
theorem pollFails_all {m u : Word} {p : Polarity} (hu : met u m p = false) : PollFails m p (List.replicate 100 u) :=
  ⟨by simp [Config.pollMax], fun _ hx => List.eq_of_mem_replicate hx ▸ hu⟩

/-! ### Configuration and well-formedness -/

theorem test_config_sound : Config.Sound := by decide

/-- R82: the last byte of the address space may be the buffer's last. -/
theorem test_wf_buffer_at_top : cmd17.wellFormed (oneBlock 0xFFFFFFFF 1) = true := by decide
/-- R95: a buffer range that wraps is ill-formed for a data request. -/
theorem test_wf_rejects_wrapping_read : cmd17.wellFormed (oneBlock 0xFFFFFFFF 2) = false := by decide
theorem test_wf_rejects_wrapping_write : cmd24.wellFormed (oneBlock 0xFFFFFFFF 2) = false := by decide
/-- Without a data phase the same operands are unused. -/
theorem test_wf_ignores_unused_operands : cmd2.wellFormed (oneBlock 0xFFFFFFFF 2) = true := by decide

/-! ### Decoding -/

/-- CMD2: CMDIDX 000010, RTYPE 011, CRC 1. -/
theorem test_decode_exec : decodeTableWord 32 0b00000000000000000000101100001000 = some cmd2 := by decide
/-- CMD17: W4 1, DIR 0, DATA 1, CRC 1, RTYPE 001, CMDIDX 010001. -/
theorem test_decode_exec_rd : decodeTableWord 32 0b00000000000000001010100101000100 = some cmd17 := by decide
/-- CMD24: DIR 1, DATA 1, CRC 1, RTYPE 001, CMDIDX 011000. -/
theorem test_decode_exec_wr : decodeTableWord 32 0b00000000000000000110100101100000 = some cmd24 := by decide
theorem test_decode_set_rate : decodeTableWord 32 0b00000000000000000000000000000001 = some .setRate := by decide
theorem test_decode_open : decodeTableWord 32 0b00000000000000000000000000000010 = some .openHost := by decide
/-- R115, one word for each condition. -/
theorem test_decode_reserved :
    decodeTableWord 32 0x3 = none ∧ decodeTableWord 32 0x5 = none ∧ decodeTableWord 32 0x6 = none ∧
      decodeTableWord 32 0x10000 = none ∧ decodeTableWord 32 0x500 = none ∧ decodeTableWord 32 0x600 = none ∧
      decodeTableWord 32 0x700 = none ∧ decodeTableWord 32 0x4000 = none := by decide
theorem test_encode_words :
    encode cmd2 = 0xB08 ∧ encode cmd17 = 0xA944 ∧ encode cmd24 = 0x6960 ∧ encode .setRate = 1 ∧
      encode .openHost = 2 := by decide

/-! ### Single steps -/

/-- E2's flags for a read are DATA_EN (R280). -/
theorem test_read_flags : (procStep (busyAt cmd17 (.execute .e2Resto) [])).flags = 0x4 := by decide
/-- E2's flags for a write are DATA_EN and WRITE (R280). -/
theorem test_write_flags : (procStep (busyAt cmd24 (.execute .e2Resto) [])).flags = 0xC := by decide
/-- ISSUE's format for a long response is 10 (R191). -/
theorem test_long_format : (procStep (busyAt cmd2 (.issue .i0) [.execute .e5])).flags = 0x2 := by decide
/-- ARG = 0x1234ABCD writes ARGH = 0x1234 (R135). -/
theorem test_argument_high :
    (procStep ((busyAt cmd2 (.issue .i3) [.execute .e5]).setRq
      { State.reset.rq with req := encode cmd2, arg := 0x1234ABCD })).ctrl.argh = 0x1234 := by decide
/-- 400 kHz gives DIV 5, 304 kHz DIV 6, F_MAX DIV 1 (R324, R325). -/
theorem test_divider :
    (halvings (evenRatio 400000)).div = 5 ∧ (halvings (evenRatio 304000)).div = 6 ∧
      (halvings (evenRatio 19500000)).div = 1 ∧ (halvings (evenRatio 19500001)).div = 0 := by decide
/-- The fast rate writes code 7 (R322). -/
theorem test_fast_rate :
    (procStep ((busyAt .setRate (.setRate .sr2) []).setRq
      { State.reset.rq with req := 1, hz := 26000000 })).ctrl.clkrt = 7 := by decide
/-- OPEN's third write is I_MASK = 0x60 (R131). -/
theorem test_open_masks : (procStep (busyAt .openHost (.openHost .o4) [])).ctrl.iMask = 0x60 := by decide
/-- The register map's ends (R120). -/
theorem test_offsets :
    WriteReg.strpcl.offset = 0x00 ∧ WriteReg.txfifo.offset = 0x44 ∧ busAddress ReadReg.rxfifo.offset = 0x41100040 := by
  decide
/-- The error mask is STAT bits 0 to 5, and no listed bit above them is in it (R122, R123). -/
theorem test_error_mask :
    [0, 1, 2, 3, 4, 5].map (fun n => hasError (bitMask n)) = List.replicate 6 true ∧
      [6, 7, 8, 11, 12, 13].map (fun n => hasError (bitMask n)) = List.replicate 6 false := by decide
/-- Example of R212: bytes 1 to 4 of the stream make the first word. -/
theorem test_response_word : responseWord 0x0012 0x3456 0x789A = 0x12345678 := by decide
/-- After reset, a request placed next is accepted: the table's five words. -/
theorem test_first_step_accepts :
    step (State.reset.withFetchWord 32 0xB08) =
      .next (accept 0xB08 (.execute .e0) (State.reset.setCtl State.reset.ctl)) := by rfl

/-! ### Witnesses: encoding, reset, host port -/

theorem test_witness_ReservedRequestsAreRefused :
    ((State.reset.setHost [.request { req := 3, operands := .zero }]).ctl.busy = false ∧
        decode 3 = .error .opcode ∧ decode 5 = .error .fixedBits ∧ decode 0x10000 = .error .highBits ∧
        decode 0x500 = .error .responseType ∧ decode 0x4000 = .error .directionWithoutData) ∧
      (cmd24.hasData = true ∧ (idleWith (oneBlock 0xFFFFFFFF 2) [] [] [] []).ctl.busy = false ∧
        (oneBlock 0xFFFFFFFF 2).buf.toNat + (oneBlock 0xFFFFFFFF 2).blocks.toNat * (oneBlock 0xFFFFFFFF 2).blksize.toNat
          > 2 ^ 32) :=
  ⟨⟨rfl, rfl, rfl, rfl, rfl, rfl⟩, rfl, rfl, by decide⟩

theorem test_witness_DecodeSelectsOperation :
    decode 1 = .ok .setRate ∧ decode 2 = .ok .openHost ∧ decode 0xB08 = .ok cmd2 ∧ decode 0xA944 = .ok cmd17 ∧
      decode 0x6960 = .ok cmd24 := ⟨rfl, rfl, rfl, rfl, rfl⟩

theorem test_witness_ResetLeavesIdle :
    ((busyAt cmd17 (.readPump .p4) [.execute .e8]).setHost [.reset]).host = .reset :: [] := rfl

theorem test_witness_StepRunsDecodedRequest :
    (State.reset.ctl.busy = false ∧
        (State.reset.setHost [.request { req := 0xB08, operands := .zero }]).host =
          .request { req := 0xB08, operands := .zero } :: [] ∧
        (State.reset.setHost [.requestNow { req := 0xB08, operands := .zero }]).host =
          .requestNow { req := 0xB08, operands := .zero } :: [] ∧ decode 0xB08 = .ok cmd2) ∧
      ((busyAt cmd2 (.execute .e1) []).ctl.busy = true ∧ decode (busyAt cmd2 (.execute .e1) []).rq.req = .ok cmd2 ∧
        (busyAt cmd2 (.execute .e1) []).host = []) :=
  ⟨⟨rfl, rfl, rfl, rfl⟩, rfl, rfl, rfl⟩

theorem test_witness_BusyBlockRefusesRequests :
    (busyAt cmd2 (.execute .e1) []).ctl.busy = true ∧ (busyAt cmd2 (.execute .e1) []).rq.req ≠ encode cmd17 ∧
      State.reset.ctl.busy = false ∧ State.reset.host = [] := by decide

/-- A read of four bytes at 0x100 in flight: the first and the last byte are owned, their neighbours are not. -/
theorem test_witness_HostWritesOutsideOwnedBuffer :
    let s := (accept (encode cmd17) (.execute .e0) (idleWith (oneBlock 0x100 4) [] [] [] [])).setHost [.store 0x100 7]
    s.host = .store 0x100 7 :: [] ∧ s.ctl.busy = true ∧ fieldOp s.rq.req = 0b00 ∧ s.data = true ∧
      s.owns 0xFF = false ∧ s.owns 0x100 = true ∧ s.owns 0x103 = true ∧ s.owns 0x104 = false := by decide

theorem test_witness_AcceptanceLatchesRequest :
    (State.reset.ctl.busy = false ∧ cmd17.wellFormed State.reset.port = true) ∧
      (busyAt cmd2 (.execute .e1) []).ctl.busy = true ∧
      step (busyAt cmd2 (.execute .e1) []) = .next (procStep (busyAt cmd2 (.execute .e1) [])) :=
  ⟨⟨rfl, rfl⟩, rfl, rfl⟩

/-! ### Witnesses: procedures -/

/-- EXEC's wait for END_CMD_RES. -/
def awaitEnd (answers : List Word) : State :=
  busyStat cmd2 (.await (.a0 0x2000 .set .cmdEnd)) [.execute .e6] answers
/-- SETRATE's wait for the clock to stop, whose error is discarded. -/
def awaitStop (answers : List Word) : State :=
  busyStat .setRate (.await (.a0 0x100 .clear .clkStop)) [.stopClock .s4, .setRate .sr6] answers

theorem serving_awaitEnd (l : List Word) : Serving (awaitEnd l) :=
  serving_congr (s := awaitEnd []) ⟨rfl, rfl, by decide⟩ rfl rfl rfl
theorem serving_awaitStop (l : List Word) : Serving (awaitStop l) :=
  serving_congr (s := awaitStop []) ⟨rfl, rfl, by decide⟩ rfl rfl rfl

theorem test_witness_AwaitCountLaw :
    Serving (awaitEnd [0x2000]) ∧ PollOk 0x2000 .set [0x2000] ∧
      PollOk 0x2000 .set (List.replicate 99 0 ++ [0x2000]) ∧
      Serving (awaitEnd (List.replicate 100 0)) ∧ PollFails 0x2000 .set (List.replicate 100 0) ∧
      catcher (awaitEnd []).ctl.stk = none ∧
      Serving (awaitStop (List.replicate 100 0x100)) ∧ PollFails 0x100 .clear (List.replicate 100 0x100) ∧
      catcher (awaitStop []).ctl.stk = some (.setRate .sr6, []) :=
  ⟨serving_awaitEnd _, pollOk_one rfl, pollOk_last rfl rfl, serving_awaitEnd _, pollFails_all rfl, rfl,
    serving_awaitStop _, pollFails_all rfl, rfl⟩

theorem test_witness_EveryAwaitEnds :
    Serving (awaitEnd []) ∧ (awaitEnd []).ctl.seq = .await (.a0 0x2000 .set .cmdEnd) ∧
      (awaitEnd []).ctl.stk = .execute .e6 :: [] := ⟨serving_awaitEnd _, rfl, rfl⟩

theorem test_witness_ClockSequencerSteps :
    Serving (busyStat cmd2 (.stopClock .s0) [.execute .e2] [0]) ∧ (0 : Word).getLsbD 8 = false ∧
      Serving (busyStat cmd2 (.stopClock .s0) [.execute .e2] [0x100]) ∧ (0x100 : Word).getLsbD 8 = true ∧
      Serving (busyAt cmd2 (.startClock .t0) [.issue .i7, .execute .e5]) :=
  ⟨⟨rfl, rfl, rfl⟩, rfl, ⟨rfl, rfl, rfl⟩, rfl, ⟨rfl, rfl, rfl⟩⟩

/-- ISSUE's entry for each response type, whose code stands in the latched word. -/
theorem test_witness_IssueWritesCommandRegisters :
    Serving (busyAt cmd2 (.issue .i0) [.execute .e5]) ∧
      ∀ rt : RType, (busyAt (.exec 0 rt false false false) (.issue .i0) [.execute .e5]).rtype = rt ∧
        (busyAt (.exec 0 rt false false false) (.issue .i0) [.execute .e5]).rq.req.extractLsb' 8 3 = rt.code :=
  ⟨⟨rfl, rfl, rfl⟩, fun rt => by cases rt <;> exact ⟨rfl, rfl⟩⟩

/-- DECODE's entry with STAT and RES answers pending. -/
def decodeEntry (v : Word) (res : List Word) : State :=
  let s := busyAt cmd2 (.decode .dc0) [.execute .e7]
  s.setEnv { s.env with stat := [v], res := res }

theorem test_witness_ResponseReassembly :
    Serving (decodeEntry 0x2000 (List.replicate 9 0x80)) ∧
      (decodeEntry 0x2000 (List.replicate 9 0x80)).env.stat = 0x2000 :: [] ∧ (0x2000 : Word).getLsbD 1 = false ∧
      (decodeEntry 0x2000 (List.replicate 9 0x80)).env.res =
        [0x80, 0x80, 0x80, 0x80, 0x80, 0x80, 0x80, 0x80, 0x80] ++ [] :=
  ⟨⟨rfl, rfl, rfl⟩, rfl, rfl, rfl⟩

theorem test_witness_ResponseTimeoutReadsNothing :
    Serving (decodeEntry 0x22 []) ∧ (decodeEntry 0x22 []).env.stat = 0x22 :: [] ∧ (0x22 : Word).getLsbD 1 = true :=
  ⟨⟨rfl, rfl, rfl⟩, rfl, rfl⟩

/-- DC9 with a snapshot and a first response word. -/
def crcTest (snap w0 : Word) : State :=
  ((busyAt cmd2 (.decode .dc9) [.execute .e7]).setSnap snap).setResp { State.reset.resp with w0 := w0 }

theorem test_witness_CrcRuleWithSuppression :
    Serving (crcTest 0x20 0x7FFFFFFF) ∧ (crcTest 0x20 0x7FFFFFFF).snap.getLsbD 5 = true ∧
      (crcTest 0x20 0x7FFFFFFF).rq.req.getLsbD 11 = true ∧ (crcTest 0x20 0x7FFFFFFF).resp.w0.getLsbD 31 = false ∧
      (crcTest 0x20 0x80000000).rtype = .long ∧ (crcTest 0x20 0x80000000).resp.w0.getLsbD 31 = true ∧
      (crcTest 0xDF 0x80000000).snap.getLsbD 5 = false :=
  ⟨⟨rfl, rfl, rfl⟩, by decide, by decide, by decide, by decide, by decide, by decide⟩

/-- A read pump at a label, with what remains, the chunk and the cursor, and STAT and RXFIFO answers pending. -/
def readAt (l : ReadPumpLabel) (rem chunk cur : Word) (stat rx : List Word) : State :=
  let s := busyAt cmd17 (.readPump l) [.execute .e8]
  (s.setPump { s.pump with rem := rem, chunk := chunk, cur := cur }).setEnv { s.env with stat := stat, rx := rx }
/-- A write pump in the same way. -/
def writeAt (l : WritePumpLabel) (rem chunk cur : Word) (stat : List Word) : State :=
  let s := busyAt cmd24 (.writePump l) [.execute .e8]
  (s.setPump { s.pump with rem := rem, chunk := chunk, cur := cur }).setEnv { s.env with stat := stat }

theorem serving_readAt_p1 (rem : Word) (l : List Word) : Serving (readAt .p1 rem 0 0 l []) :=
  serving_congr (s := readAt .p1 0 0 0 [] []) ⟨rfl, rfl, by decide⟩ rfl rfl rfl
theorem serving_writeAt_w1 (rem : Word) (l : List Word) : Serving (writeAt .w1 rem 0 0 l) :=
  serving_congr (s := writeAt .w1 0 0 0 []) ⟨rfl, rfl, by decide⟩ rfl rfl rfl

/-- A chunk of two bytes that ends at the top of the address space. -/
theorem test_witness_ReadChunkMovesBytes :
    let s := readAt .p4 2 2 0xFFFFFFFE [] [0x155, 0x2AA]
    Serving s ∧ s.pump.j = 0 ∧ s.mem.wf = true ∧ [(0x155 : Word), 0x2AA].length = s.pump.chunk.toNat ∧
      s.pump.cur.toNat + 2 ≤ 2 ^ 32 ∧ s.env.rx = [0x155, 0x2AA] ++ [] :=
  ⟨⟨rfl, rfl, rfl⟩, rfl, rfl, rfl, by decide, rfl⟩

theorem test_witness_WriteChunkSendsBytes :
    let s := writeAt .w4 2 2 0xFFFFFFFE []
    Serving s ∧ s.pump.j = 0 ∧ s.pump.cur.toNat + s.pump.chunk.toNat ≤ 2 ^ 32 :=
  ⟨⟨rfl, rfl, rfl⟩, rfl, by decide⟩

theorem test_witness_PumpLoopHasNoBound :
    (Serving (readAt .p1 1 0 0 [0x40, 0] []) ∧ (readAt .p1 1 0 0 [0x40, 0] []).pump.rem ≠ 0 ∧
        (∀ v ∈ [(0x40 : Word), 0], v &&& 0x3F = 0) ∧ ∀ v ∈ [(0x40 : Word), 0], v.getLsbD 7 = false) ∧
      Serving (writeAt .w1 1 0 0 [0x80]) ∧ (∀ v ∈ [(0x80 : Word)], v &&& 0x3F = 0) ∧
        ∀ v ∈ [(0x80 : Word)], v.getLsbD 6 = false :=
  ⟨⟨⟨rfl, rfl, rfl⟩, by decide, by simp, by simp⟩, ⟨rfl, rfl, rfl⟩, by simp, by simp⟩

theorem test_witness_ReadyIsServedBeforeError :
    Serving (readAt .p2 1 0 0x100 [0x1] []) ∧ (0x1 : Word) &&& 0x3F ≠ 0 ∧ (0x1 : Word).getLsbD 7 = false ∧
      Serving (readAt .p2 1 0 0x100 [0xA0] [0x55]) ∧ (0xA0 : Word) &&& 0x3F ≠ 0 ∧ (0xA0 : Word).getLsbD 7 = true ∧
      [(0x55 : Word)].length = min (1 : Word).toNat 32 ∧ (readAt .p2 1 0 0x100 [0xA0] [0x55]).env.rx = [0x55] ++ [] :=
  ⟨⟨rfl, rfl, rfl⟩, by decide, by decide, ⟨rfl, rfl, rfl⟩, by decide, by decide, by decide, rfl⟩

theorem test_witness_WriteReadyIsServedBeforeError :
    Serving (writeAt .w2 33 0 0x100 [0x1]) ∧ (0x1 : Word) &&& 0x3F ≠ 0 ∧ (0x1 : Word).getLsbD 6 = false ∧
      Serving (writeAt .w2 31 0 0x100 [0x60]) ∧ (0x60 : Word) &&& 0x3F ≠ 0 ∧ (0x60 : Word).getLsbD 6 = true ∧
      (0x100 : Word).toNat + min (31 : Word).toNat 32 ≤ 2 ^ 32 :=
  ⟨⟨rfl, rfl, rfl⟩, by decide, by decide, ⟨rfl, rfl, rfl⟩, by decide, by decide, by decide⟩

/-- A chunk one byte short of the FIFO signals; a full one does not (R244). -/
theorem test_witness_PartialBufferSignal :
    Serving (writeAt .w5 31 31 0 []) ∧ (31 : Word).toNat < 32 ∧ Serving (writeAt .w5 32 32 0 []) ∧
      32 ≤ (32 : Word).toNat ∧
      step (writeAt .w5 31 31 0 []) = .next (procStep (writeAt .w5 31 31 0 [])) ∧
      (procStep (writeAt .w5 31 31 0 [])).trace = .write 0x24 0x1 :: (writeAt .w5 31 31 0 []).trace :=
  ⟨⟨rfl, rfl, rfl⟩, by decide, ⟨rfl, rfl, rfl⟩, by decide, rfl, by decide⟩

theorem test_witness_PumpFinalWaits :
    Serving (readAt .p1 0 0 0 [0x800] []) ∧ PollOk 0x800 .set [0x800] ∧
      Serving (readAt .p1 0 0 0 (List.replicate 100 0) []) ∧ PollFails 0x800 .set (List.replicate 100 0) ∧
      Serving (writeAt .w1 0 0 0 (List.replicate 100 0x1000)) ∧ PollFails 0x800 .set (List.replicate 100 0x1000) ∧
      Serving (writeAt .w1 0 0 0 [0x800, 0x1000]) ∧ PollOk 0x1000 .set [0x1000] ∧
      Serving (writeAt .w1 0 0 0 (0x800 :: List.replicate 100 0x800)) ∧ PollFails 0x1000 .set (List.replicate 100 0x800) :=
  ⟨serving_readAt_p1 _ _, pollOk_one rfl, serving_readAt_p1 _ _, pollFails_all rfl, serving_writeAt_w1 _ _,
    pollFails_all rfl, serving_writeAt_w1 _ _, pollOk_one rfl, serving_writeAt_w1 _ _, pollFails_all rfl⟩

/-! ### Witnesses: operations -/

/-- For the completions of EXEC and of OPEN in every environment. -/
theorem test_witness_idle_and_quiet : State.reset.ctl.busy = false ∧ State.reset.host = [] := ⟨rfl, rfl⟩

/-- Nine RES answers. -/
def nine : List Word := [0x80, 0, 0, 0, 0, 0, 0, 0, 0]

theorem stopOk_stopped : StopOk [0] := rfl
theorem stopOk_stopping : StopOk [0x100, 0] := pollOk_one rfl

theorem test_witness_ExecSucceeds :
    let s := idleWith .zero [0, 0x100, 0x2100, 0x2100] nine [] []
    s.ctl.busy = false ∧ s.host = [] ∧ s.env.stat = [0] ++ [0x100] ++ [0x2100] ++ 0x2100 :: [] ∧
      s.env.res = [0x80, 0, 0, 0, 0, 0, 0, 0, 0] ++ [] ∧ StopOk [0] ∧ StopOk [0x100, 0] ∧ PollOk 0x100 .set [0x100] ∧
      PollOk 0x2000 .set [0x2100] ∧ (0x2100 : Word).getLsbD 1 = false ∧ (0x2100 : Word).getLsbD 5 = false :=
  ⟨rfl, rfl, rfl, rfl, stopOk_stopped, stopOk_stopping, pollOk_one rfl, pollOk_one rfl, by decide, by decide⟩

/-- A block of 33 bytes: two chunks. -/
theorem test_witness_ExecRdSucceeds :
    let s := idleWith (oneBlock 0x1000 33) [0, 0x100, 0x2100, 0x2100, 0x80, 0x80, 0x800] nine (List.replicate 33 0x5A) []
    s.ctl.busy = false ∧ s.host = [] ∧ s.mem.wf = true ∧ s.port.bufferFits = true ∧
      s.env.stat = [0] ++ [0x100] ++ [0x2100] ++ 0x2100 :: ([0x80, 0x80] ++ [0x800] ++ []) ∧
      s.env.rx = List.replicate 33 0x5A ++ [] ∧
      (List.replicate 33 (0x5A : Word)).length = s.port.blocks.toNat * s.port.blksize.toNat ∧
      pumpOk 7 33 [0x80, 0x80] = true ∧ pumpOk 7 0 [] = true ∧ PollOk 0x800 .set [0x800] ∧
      s.env.res = [0x80, 0, 0, 0, 0, 0, 0, 0, 0] ++ [] ∧ StopOk [0] ∧ PollOk 0x100 .set [0x100] ∧
      PollOk 0x2000 .set [0x2100] ∧ (0x2100 : Word).getLsbD 1 = false ∧ (0x2100 : Word).getLsbD 5 = false :=
  ⟨rfl, rfl, rfl, by decide, rfl, rfl, by decide, by decide, by decide, pollOk_one rfl, rfl, stopOk_stopped,
    pollOk_one rfl, pollOk_one rfl, by decide, by decide⟩

/-- A block of 33 bytes to the top of the address space. -/
theorem test_witness_ExecWrSucceeds :
    let s := idleWith (oneBlock 0xFFFFFFDF 33) [0, 0x100, 0x2100, 0x2100, 0x40, 0x40, 0x800, 0x1000] nine [] []
    s.ctl.busy = false ∧ s.host = [] ∧ s.port.bufferFits = true ∧
      s.env.stat = [0] ++ [0x100] ++ [0x2100] ++ 0x2100 :: ([0x40, 0x40] ++ [0x800] ++ [0x1000] ++ []) ∧
      pumpOk 6 (s.port.blocks.toNat * s.port.blksize.toNat) [0x40, 0x40] = true ∧ PollOk 0x800 .set [0x800] ∧
      PollOk 0x1000 .set [0x1000] ∧ s.env.res = [0x80, 0, 0, 0, 0, 0, 0, 0, 0] ++ [] ∧ StopOk [0] ∧
      PollOk 0x100 .set [0x100] ∧ PollOk 0x2000 .set [0x2100] ∧ (0x2100 : Word).getLsbD 1 = false ∧
      (0x2100 : Word).getLsbD 5 = false :=
  ⟨rfl, rfl, by decide, rfl, by decide, pollOk_one rfl, pollOk_one rfl, rfl, stopOk_stopped, pollOk_one rfl,
    pollOk_one rfl, by decide, by decide⟩

theorem test_witness_StuckClockEndsExecute :
    let s := idleWith .zero (0x100 :: List.replicate 100 0x100) [] [] []
    s.ctl.busy = false ∧ s.host = [] ∧ cmd2.wellFormed s.port = true ∧ cmd2.start = .execute .e0 ∧
      cmd17.start = .execute .e0 ∧ cmd24.start = .execute .e0 ∧
      s.env.stat = 0x100 :: List.replicate 100 0x100 ++ [] ∧ (0x100 : Word).getLsbD 8 = true ∧
      PollFails 0x100 .clear (List.replicate 100 0x100) :=
  ⟨rfl, rfl, rfl, rfl, rfl, rfl, rfl, by decide, pollFails_all rfl⟩

theorem test_witness_ExecTimeoutsNameTheirWait :
    let s := idleWith .zero (0 :: List.replicate 100 0) [] [] []
    let u := idleWith .zero (0 :: 0x100 :: List.replicate 100 0) [] [] []
    s.env.stat = [0] ++ List.replicate 100 0 ++ [] ∧ StopOk [0] ∧ PollFails 0x100 .set (List.replicate 100 0) ∧
      u.env.stat = [0] ++ [0x100] ++ List.replicate 100 0 ++ [] ∧ PollOk 0x100 .set [0x100] ∧
      PollFails 0x2000 .set (List.replicate 100 0) ∧ cmd2.wellFormed s.port = true ∧ cmd2.start = .execute .e0 :=
  ⟨rfl, stopOk_stopped, pollFails_all rfl, rfl, pollOk_one rfl, pollFails_all rfl, rfl, rfl⟩

theorem test_witness_DividerFunction : (1 : Word) ≠ 0 ∧ (0xFFFFFFFF : Word) ≠ 0 := by decide

theorem test_witness_SetRateWritesClkrt :
    let s := (busyAt .setRate (.setRate .sr2) []).setRq { State.reset.rq with req := 1, hz := 26000000 }
    (Serving s ∧ s.ctl.seq = .setRate .sr2 ∧ s.rq.hz = 26000000) ∧
    (idleWith (rate 26000000) [] [] [] []).ctl.busy = false ∧ (idleWith (rate 26000000) [] [] [] []).host = [] ∧
      (rate 26000000).hz ≠ 0 ∧ (rate 1).hz ≠ 0 ∧ (rate 1).hz ≠ 26000000 :=
  ⟨⟨⟨rfl, rfl, rfl⟩, rfl, rfl⟩, by decide⟩

theorem test_witness_SetRateReportsNoError :
    (idleWith (rate 0) [] [] [] []).ctl.busy = false ∧ (idleWith (rate 0) [] [] [] []).port.hz = 0 := by decide

theorem test_witness_OpenConfiguresController :
    let s := idleWith .zero [0x100, 0] [] [] [.none]
    s.ctl.busy = false ∧ s.host = [] ∧ s.env.alloc = .none :: [] ∧ s.env.stat = [0x100, 0] ++ [] ∧ StopOk [0x100, 0] :=
  ⟨rfl, rfl, rfl, rfl, stopOk_stopping⟩

theorem test_witness_OpenAllocationFailure :
    (idleWith .zero [] [] [] [.failAtEntry]).env.alloc = .failAtEntry :: [] ∧
      (idleWith .zero [0] [] [] [.failAtExit]).env.alloc = .failAtExit :: [] ∧
      (idleWith .zero [0] [] [] [.failAtExit]).env.stat = [0] ++ [] ∧ StopOk [0] := ⟨rfl, rfl, rfl, stopOk_stopped⟩

theorem test_witness_StuckClockFailsOpen :
    let s := idleWith .zero (0x100 :: List.replicate 100 0x100) [] [] [.failAtExit]
    s.ctl.busy = false ∧ s.host = [] ∧ s.env.alloc = .failAtExit :: [] ∧ AllocDraw.failAtExit ≠ .failAtEntry ∧
      s.env.stat = 0x100 :: List.replicate 100 0x100 ++ [] ∧ (0x100 : Word).getLsbD 8 = true ∧
      PollFails 0x100 .clear (List.replicate 100 0x100) :=
  ⟨rfl, rfl, rfl, by decide, rfl, by decide, pollFails_all rfl⟩

/-! ### Witnesses: invariants and frames -/

/-- A read pump about to store its 32nd byte of a chunk of 32 at the end of its buffer. -/
def lastStore : State :=
  let s := readAt .p4Store 32 32 0x11F [] []
  (s.setRq { s.rq with blocks := 1, blksize := 32, buf := 0x100 }).setPump { s.pump with j := 31 }

/-- A write pump about to fetch the first byte of its buffer. -/
def firstFetch : State :=
  let s := writeAt .w4 32 32 0x100 []
  s.setRq { s.rq with blocks := 1, blksize := 32, buf := 0x100 }

/-- For every invariant kept by a step, for the absence of faults and for the one primitive a step performs. -/
theorem test_witness_invariants_kept :
    seqInv lastStore = true ∧ pollInv lastStore = true ∧ chunkInv lastStore = true ∧ siteInv lastStore = true ∧
      bufferInv lastStore = true ∧ lastStore.mem.wf = true ∧ step lastStore = .next (procStep lastStore) :=
  ⟨rfl, rfl, rfl, rfl, by decide, rfl, rfl⟩

/-- The store of the last byte of a buffer, and the fetch of the first. -/
theorem test_witness_BufferAccessesStayInRange :
    (seqInv lastStore = true ∧ bufferInv lastStore = true ∧ step lastStore = .next (procStep lastStore) ∧
        (procStep lastStore).trace = .memWrite 0x11F 0 :: lastStore.trace) ∧
      seqInv firstFetch = true ∧ bufferInv firstFetch = true ∧ step firstFetch = .next (procStep firstFetch) ∧
        (procStep firstFetch).trace = .memRead 0x100 0 :: firstFetch.trace :=
  ⟨⟨rfl, by decide, rfl, by decide⟩, rfl, by decide, rfl, by decide⟩

theorem test_witness_StackHoldsAtMostThree :
    seqInv (busyAt cmd2 (.await .a2) [.startClock .t2, .issue .i7, .execute .e5]) = true := rfl

/-- A poll at its last read that fails. -/
def lastRead : State := (awaitEnd []).setCtl { seq := .await .a3, stk := [.execute .e6], busy := true }

theorem test_witness_PollCounterBounded :
    pollInv (lastRead.setPoll { State.reset.poll with pcnt := 100 }) = true ∧
      pollInv (lastRead.setPoll { State.reset.poll with pcnt := 101 }) = false := by decide

/-- The completion steps: E8's return, a timeout, OPEN's entry failure. -/
theorem test_witness_CompletionIsPrecise :
    (seqInv (busyAt cmd2 (.execute .e8) []) = true ∧ (procStep (busyAt cmd2 (.execute .e8) [])).ctl.busy = false) ∧
      (seqInv (lastRead.setPoll { State.reset.poll with pcnt := 100 }) = true ∧
        (procStep (lastRead.setPoll { State.reset.poll with pcnt := 100 })).ctl.busy = false) ∧
      (let s := busyAt .openHost (.openHost .o0) []
       let u := s.setEnv { s.env with alloc := [.failAtEntry] }
       seqInv u = true ∧ (procStep u).ctl.busy = false) := by decide

/-- One completing step for each outcome. -/
theorem test_witness_ErrorsAriseOnlyAtTheirSteps :
    (procStep (lastRead.setPoll { State.reset.poll with pcnt := 100 })).done.result = .timeout ∧
      (procStep ((busyAt cmd2 (.decode .dc1) [.execute .e7]).setSnap 2)).done.result = .timeout ∧
      (procStep (busyAt cmd2 (.decode .dc11) [.execute .e7])).done.result = .responseCrcMismatch ∧
      (procStep ((readAt .p6 1 1 0 [] []).setSnap 1)).done.result = .transferIoError ∧
      (procStep ((writeAt .w7 1 1 0 []).setSnap 1)).done.result = .transferIoError ∧
      (procStep ((busyAt .openHost (.openHost .o5) []).setAlloc .failAtExit)).done.result = .allocationFailure := by
  decide

theorem test_witness_SuppressionFlagHasOneSetter :
    let s := (crcTest 0x20 0x80000000).setCtl { seq := .decode .dc10, stk := [.execute .e7], busy := true }
    step s = .next (procStep s) ∧ s.done.crcSupp = false ∧ (procStep s).done.crcSupp = true := ⟨rfl, rfl, rfl⟩

/-- Two idle machines that differ in registers, with a host that presents CMD2: its acceptance and E0. -/
theorem test_witness_RegisterContentsNeverMatter :
    let s := State.reset.setHost [.request { req := 0xB08, operands := .zero }]
    let s' := (s.setSnap 0x3F).setFlags 0xFF
    s.ctl = { seq := .idle, stk := [], busy := false } ∧ s'.ctl = s.ctl ∧ s'.host = s.host ∧ s' ≠ s ∧
      ∃ t, run 2 s = .next t ∧ t.ctl.seq = .execute .e1 :=
  ⟨rfl, rfl, rfl, by decide, _, rfl, rfl⟩

theorem test_witness_OnlyDecodeWritesResponse :
    let s := (busyAt cmd2 (.decode .dc6) [.execute .e7]).setAsm { State.reset.asm with rb := 1 }
    step s = .next (procStep s) ∧ (procStep s).resp ≠ s.resp := ⟨rfl, by decide⟩

/-- For the four frames. -/
theorem test_witness_frames :
    exec cmd2 (busyAt cmd2 (.execute .e8) []) = .next (procStep (busyAt cmd2 (.execute .e8) [])) ∧
      exec cmd17 lastStore = .next (procStep lastStore) ∧ lastStore.mem.wf = true ∧
      exec cmd24 (writeAt .w5 31 31 0 []) = .next (procStep (writeAt .w5 31 31 0 [])) ∧
      exec .setRate (busyAt .setRate (.setRate .sr5) []) = .next (procStep (busyAt .setRate (.setRate .sr5) [])) ∧
      exec .openHost (busyAt .openHost (.openHost .o4) []) =
        .next (procStep (busyAt .openHost (.openHost .o4) [])) := ⟨rfl, rfl, rfl, rfl, rfl, rfl⟩

/-- A write of the byte an unlisted address reads as removes the cell. -/
theorem test_witness_StoredByteReadsBack :
    Memory.wf [(3, 1), (5, 2)] = true ∧ Memory.write [(3, 1), (5, 2)] 3 0 = [(5, 2)] ∧
      Memory.write [(3, 1), (5, 2)] 4 9 = [(3, 1), (4, 9), (5, 2)] := by decide

end Sys2Proof.Tests
end

section
/-! PROOFS. Buffer memory: what a write leaves to be read (spec/00_scope.md R12, spec/20_memory.md R82). -/

namespace Sys2Proof.Machine

/-- A cell put in front of larger addresses reads back, also where it is left out of the list. -/
theorem read_cons_of_below {m : Memory} {a : Nat} (v : Byte) (b : Nat) (h : ∀ x ∈ m, a < x.1) :
    (Memory.cons a v m).read b = if b = a then v else m.read b := by
  rw [read_cons]
  by_cases hb : b = a
  · subst hb
    by_cases hv : v = Config.unwrittenByte
    · simp [hv, read_below h]
    · simp [hv]
  · simp [hb, Ne.symm hb]

/-- In the canonical form the written byte reads back and every other byte reads as before. -/
theorem read_write {m : Memory} (a b : Nat) (v : Byte) (hm : m.wf = true) :
    (m.write a v).read b = if b = a then v else m.read b := by
  induction m with
  | nil => exact read_cons_of_below v b (by simp)
  | cons y m ih =>
    obtain ⟨k, c⟩ := y
    obtain ⟨_, _, hlt, hwf⟩ := wf_cell.mp hm
    simp only [Memory.write]
    split
    · rename_i hak
      refine read_cons_of_below v b fun x hx => ?_
      rcases List.mem_cons.mp hx with rfl | hx
      · exact hak
      · exact Nat.lt_trans hak (hlt x hx)
    · split
      · rename_i _ hak
        subst hak
        rw [read_cons_of_below v b hlt]
        by_cases hb : b = a
        · simp [hb]
        · simp [hb, Memory.read, Ne.symm hb]
      · rename_i _ hak
        simp only [Memory.read, ih hwf]
        by_cases hb : b = a
        · subst hb
          simp [Ne.symm hak]
        · simp [hb]

/-- Settles O57, by induction on the list of cells: the write finds its place in the rising addresses. -/
theorem storedByteReadsBack : Obligations.StoredByteReadsBack :=
  fun _ a b v hm => read_write a b v hm

end Sys2Proof.Machine
end

section
/-! PROOFS. The trace of a step: which labels perform a primitive (spec/00_scope.md R14, spec/10_state.md R62). -/

namespace Sys2Proof.Machine

/-- `t` has the trace of `s`, or that trace with one more event. -/
def AddsAtMostOneEvent (s t : State) : Prop := t.trace = s.trace ∨ ∃ e, t.trace = e :: s.trace

namespace AddsAtMostOneEvent

variable {s t u : State}

theorem silent (h : t.trace = s.trace) : AddsAtMostOneEvent s t := .inl h

theorem event {e : Event} (h : t.trace = e :: s.trace) : AddsAtMostOneEvent s t := .inr ⟨e, h⟩

/-- A test performs nothing itself. -/
theorem branch {c : Prop} [Decidable c] (ht : AddsAtMostOneEvent s t) (hu : AddsAtMostOneEvent s u) :
    AddsAtMostOneEvent s (if c then t else u) := by
  split
  · exact ht
  · exact hu

end AddsAtMostOneEvent

open AddsAtMostOneEvent

theorem executeStep_addsAtMostOneEvent (s : State) (l : ExecuteLabel) : AddsAtMostOneEvent s (executeStep s l) := by
  cases l with
  | e0 | e1 | e3 | e4 | e5 | e6 | e8 => exact silent (by simp [executeStep])
  | e2 => exact branch (event rfl) (silent rfl)
  | e2Blklen | e2Resto => exact event rfl
  | e7 => exact branch (branch (silent rfl) (silent rfl)) (silent rfl)

theorem stopClockStep_addsAtMostOneEvent (s : State) (l : StopClockLabel) :
    AddsAtMostOneEvent s (stopClockStep s l) := by
  cases l with
  | s0 | s2 => exact event rfl
  | s1 => exact branch (silent rfl) (silent (by simp))
  | s3 | s4 => exact silent (by simp [stopClockStep])

theorem startClockStep_addsAtMostOneEvent (s : State) (l : StartClockLabel) :
    AddsAtMostOneEvent s (startClockStep s l) := by
  cases l with
  | t0 => exact event rfl
  | t1 | t2 => exact silent (by simp [startClockStep])

theorem awaitStep_addsAtMostOneEvent (s : State) (l : AwaitLabel) : AddsAtMostOneEvent s (awaitStep s l) := by
  cases l with
  | a0 mask pol site => exact silent rfl
  | a1 | a4 => exact event rfl
  | a2 | a3 => exact branch (silent (by simp)) (silent rfl)

theorem issueStep_addsAtMostOneEvent (s : State) (l : IssueLabel) : AddsAtMostOneEvent s (issueStep s l) := by
  cases l with
  | i0 | i1 | i6 | i7 => exact silent (by simp [issueStep])
  | i2 | i3 | i4 | i5 => exact event rfl

theorem decodeStep_addsAtMostOneEvent (s : State) (l : DecodeLabel) : AddsAtMostOneEvent s (decodeStep s l) := by
  cases l with
  | dc0 | dc2 | dc4 | dc5 => exact event rfl
  | dc1 | dc10 => exact branch (silent (by simp)) (silent rfl)
  | dc8 | dc9 => exact branch (silent rfl) (silent rfl)
  | dc3 | dc6 | dc7 | dc11 | dc12 => exact silent (by simp [decodeStep])

theorem readPumpStep_addsAtMostOneEvent (s : State) (l : ReadPumpLabel) :
    AddsAtMostOneEvent s (readPumpStep s l) := by
  cases l with
  | p0 | p5 | p7 | p8 | p9 => exact silent (by simp [readPumpStep])
  | p1 | p3 => exact branch (silent rfl) (silent rfl)
  | p2 | p4Store => exact event rfl
  | p4 => exact branch (event rfl) (silent rfl)
  | p6 => exact branch (silent (by simp)) (silent rfl)

theorem writePumpStep_addsAtMostOneEvent (s : State) (l : WritePumpLabel) :
    AddsAtMostOneEvent s (writePumpStep s l) := by
  cases l with
  | w0 | w6 | w8 | w9 | w10 | w11 => exact silent (by simp [writePumpStep])
  | w1 | w3 => exact branch (silent rfl) (silent rfl)
  | w2 | w4Send => exact event rfl
  | w4 => exact branch (event rfl) (silent rfl)
  | w5 =>
    rcases signalPartial_cases s with ⟨_, h⟩ | ⟨_, h⟩
    · exact event (e := .write WriteReg.prtbuf.offset Config.prtbufPartial) (by simp [writePumpStep, h])
    · exact silent (by simp [writePumpStep, h])
  | w7 => exact branch (silent (by simp)) (silent rfl)

theorem setRateStep_addsAtMostOneEvent (s : State) (l : SetRateLabel) : AddsAtMostOneEvent s (setRateStep s l) := by
  cases l with
  | sr0 | sr3 | sr4 | sr6 => exact silent (by simp [setRateStep])
  | sr1 => exact branch (silent rfl) (silent rfl)
  | sr2 => exact branch (event rfl) (silent rfl)
  | sr5 => exact event rfl

theorem openHostStep_addsAtMostOneEvent (s : State) (l : OpenLabel) : AddsAtMostOneEvent s (openHostStep s l) := by
  cases l with
  | o1 | o6 => exact silent (by simp [openHostStep])
  | o2 | o3 | o4 => exact event rfl
  | o0 | o5 => exact branch (silent (by simp)) (silent rfl)

/-- One label performs at most one primitive, whatever the procedure (R14; log 7). -/
theorem procStep_addsAtMostOneEvent (s : State) : AddsAtMostOneEvent s (procStep s) := by
  unfold procStep
  split
  · exact silent rfl
  · exact executeStep_addsAtMostOneEvent s _
  · exact stopClockStep_addsAtMostOneEvent s _
  · exact startClockStep_addsAtMostOneEvent s _
  · exact awaitStep_addsAtMostOneEvent s _
  · exact issueStep_addsAtMostOneEvent s _
  · exact decodeStep_addsAtMostOneEvent s _
  · exact readPumpStep_addsAtMostOneEvent s _
  · exact writePumpStep_addsAtMostOneEvent s _
  · exact setRateStep_addsAtMostOneEvent s _
  · exact openHostStep_addsAtMostOneEvent s _

/-- Settles O47: only the step at SEQ performs a primitive, and its label performs at most one; waiting, acceptance,
reset and the host's own store leave the trace alone. -/
theorem stepPerformsOnePrimitive : Obligations.StepPerformsOnePrimitive := by
  intro s t h
  obtain ⟨hs, ⟨_, rfl⟩ | ⟨_, rfl, _⟩ | ⟨_, r, i, _, _, rfl⟩ | ⟨_, rfl⟩ | ⟨a, v, _, _, rfl⟩⟩ := step_cases h
  · exact .inl rfl
  · exact procStep_addsAtMostOneEvent (s.setHost hs)
  · exact .inl rfl
  · exact .inl rfl
  · exact .inl rfl

end Sys2Proof.Machine
end

section
/-! PROOFS. `CHUNK`: the start of a chunk alone writes it (spec/44_data_pump.md R243). -/

namespace Sys2Proof.Machine

/-- No procedure but the pumps writes a data pump register (R47). -/
theorem procStep_pump {s : State} (hr : ∀ l, s.ctl.seq ≠ .readPump l) (hw : ∀ l, s.ctl.seq ≠ .writePump l) :
    (procStep s).pump = s.pump := by
  cases hl : s.ctl.seq with
  | idle => simp [procStep, hl]
  | execute l => cases l <;> simp [procStep, hl, executeStep, callPump, apply_ite State.pump]
  | stopClock l => cases l <;> simp [procStep, hl, stopClockStep, apply_ite State.pump]
  | startClock l => cases l <;> simp [procStep, hl, startClockStep]
  | await l => cases l <;> simp [procStep, hl, awaitStep, apply_ite State.pump]
  | issue l => cases l <;> simp [procStep, hl, issueStep]
  | decode l => cases l <;> simp [procStep, hl, decodeStep, apply_ite State.pump]
  | readPump l => exact absurd hl (hr l)
  | writePump l => exact absurd hl (hw l)
  | setRate l => cases l <;> simp [procStep, hl, setRateStep, apply_ite State.pump]
  | openHost l => cases l <;> simp [procStep, hl, openHostStep, apply_ite State.pump]

/-- READ_PUMP writes `CHUNK` at P3 alone, where RXRDY starts a chunk. -/
theorem readPumpStep_chunk (s : State) (l : ReadPumpLabel) :
    (readPumpStep s l).pump.chunk =
      if l = .p3 ∧ bitSet s.snap bitRxrdy = true then chunkSize s.pump.rem else s.pump.chunk := by
  cases l with
  | p3 => by_cases h : bitSet s.snap bitRxrdy = true <;> simp [readPumpStep, h]
  | p0 | p1 | p2 | p4 | p4Store | p5 | p6 | p7 | p8 | p9 =>
    simp [readPumpStep, apply_ite State.pump, apply_ite Pump.chunk]

/-- WRITE_PUMP writes `CHUNK` at W3 alone, where TXRDY starts a chunk. -/
theorem writePumpStep_chunk (s : State) (l : WritePumpLabel) :
    (writePumpStep s l).pump.chunk =
      if l = .w3 ∧ bitSet s.snap bitTxrdy = true then chunkSize s.pump.rem else s.pump.chunk := by
  cases l with
  | w3 => by_cases h : bitSet s.snap bitTxrdy = true <;> simp [writePumpStep, h]
  | w0 | w1 | w2 | w4 | w4Send | w5 | w6 | w7 | w8 | w9 | w10 | w11 =>
    simp [writePumpStep, signalPartial, apply_ite State.pump, apply_ite Pump.chunk]

/-- A step of a procedure keeps `CHUNK`, or sets it to the size of the chunk that starts. -/
theorem procStep_chunk (s : State) :
    (procStep s).pump.chunk = s.pump.chunk ∨ (procStep s).pump.chunk = chunkSize s.pump.rem := by
  by_cases hr : ∃ l, s.ctl.seq = .readPump l
  · obtain ⟨l, hl⟩ := hr
    simp only [procStep, hl, readPumpStep_chunk]
    split
    · exact .inr rfl
    · exact .inl rfl
  · by_cases hw : ∃ l, s.ctl.seq = .writePump l
    · obtain ⟨l, hl⟩ := hw
      simp only [procStep, hl, writePumpStep_chunk]
      split
      · exact .inr rfl
      · exact .inl rfl
    · rw [procStep_pump (not_exists.mp hr) (not_exists.mp hw)]
      exact .inl rfl

/-- `min(REM, FIFO_DEPTH)` is at most `FIFO_DEPTH` (R9). -/
theorem chunkSize_le_fifoDepth (rem : Word) : chunkSize rem ≤ Config.fifoDepth := by
  unfold chunkSize
  split
  · assumption
  · exact BitVec.le_refl _

theorem chunkInv_iff {s : State} : chunkInv s = true ↔ s.pump.chunk ≤ Config.fifoDepth := decide_eq_true_iff

/-- The model's reset value of `CHUNK` meets the bound (log 1). -/
theorem reset_chunkInv : chunkInv State.reset = true := by decide

/-- A step of a procedure keeps the bound of `CHUNK`. -/
theorem procStep_chunkInv {s : State} (h : chunkInv s = true) : chunkInv (procStep s) = true := by
  rw [chunkInv_iff] at h ⊢
  rcases procStep_chunk s with hc | hc
  · rw [hc]
    exact h
  · rw [hc]
    exact chunkSize_le_fifoDepth _

/-- Settles O44: a procedure's step keeps the bound, reset gives `CHUNK` 0, and nothing else writes it. -/
theorem chunkNeverExceedsFifo : Obligations.ChunkNeverExceedsFifo := by
  intro s t hi h
  obtain ⟨hs, ⟨_, rfl⟩ | ⟨_, rfl, _⟩ | ⟨_, r, i, _, _, rfl⟩ | ⟨_, rfl⟩ | ⟨a, v, _, _, rfl⟩⟩ := step_cases h
  · exact hi
  · exact procStep_chunkInv (s := s.setHost hs) hi
  · exact hi
  · exact reset_chunkInv
  · exact hi

end Sys2Proof.Machine
end

section
/-! PROOFS. The moves of SEQ: what the step of a procedure does to the control registers (spec/10_state.md R41,
spec/45_host_adapter.md R292), and the block in order (R42). -/

namespace Sys2Proof.Machine

/-- Two labels of one procedure (R41). -/
inductive Label.SameProcedure : Label → Label → Prop where
  | execute (l l' : ExecuteLabel) : SameProcedure (.execute l) (.execute l')
  | stopClock (l l' : StopClockLabel) : SameProcedure (.stopClock l) (.stopClock l')
  | startClock (l l' : StartClockLabel) : SameProcedure (.startClock l) (.startClock l')
  | await (l l' : AwaitLabel) : SameProcedure (.await l) (.await l')
  | issue (l l' : IssueLabel) : SameProcedure (.issue l) (.issue l')
  | decode (l l' : DecodeLabel) : SameProcedure (.decode l) (.decode l')
  | readPump (l l' : ReadPumpLabel) : SameProcedure (.readPump l) (.readPump l')
  | writePump (l l' : WritePumpLabel) : SameProcedure (.writePump l) (.writePump l')
  | setRate (l l' : SetRateLabel) : SameProcedure (.setRate l) (.setRate l')
  | openHost (l l' : OpenLabel) : SameProcedure (.openHost l) (.openHost l')

/-- The first label of a procedure that is called. -/
def Label.isEntry : Label → Bool
  | .stopClock .s0 | .startClock .t0 | .await (.a0 ..) | .issue .i0 | .decode .dc0 | .readPump .p0
  | .writePump .w0 => true
  | _ => false

/-- The two labels of E2's data-register writes, which only a data operation runs (R280). -/
def Label.setsUpData : Label → Bool
  | .execute .e2Blklen | .execute .e2Resto => true
  | _ => false

/-- A pump, which only the data operation of its direction runs (R285). -/
def Label.pumps : Label → Bool
  | .readPump _ | .writePump _ => true
  | _ => false

/-- The latched operation runs `l'` where it runs `l`. -/
def State.CarriesOn (s : State) (l l' : Label) : Prop :=
  ∀ i, Sys2Proof.decode s.rq.req = .ok i → i.runs l = true → i.runs l' = true

/-- What the step at `l` does to the control registers: SEQ goes on within the procedure, a procedure is called at its
first label, or the procedure returns or raises. -/
inductive SeqMove (l : Label) (s t : State) : Prop where
  | goto {l' : Label} (same : l.SameProcedure l') (own : s.CarriesOn l l') (ctl : t.ctl = { s.ctl with seq := l' })
  | call {callee back : Label} (same : l.SameProcedure back) (entry : callee.isEntry = true)
      (returns : callee.returnsTo back = true) (own : s.CarriesOn l callee ∧ s.CarriesOn l back)
      (ctl : t.ctl = { s.ctl with seq := callee, stk := back :: s.ctl.stk })
  | ret (ctl : t.ctl = (Machine.ret s).ctl)
  | raise (e : Err) (ctl : t.ctl = (Machine.raise e s).ctl)

/-! ### Labels, stacks and operations -/

/-- The labels of one procedure nest in the same call stacks. -/
theorem nested_of_sameProcedure {l l' : Label} (h : l.SameProcedure l') (stk : List Label)
    (hn : nested l stk = true) : nested l' stk = true := by
  refine nested_same ?_ ?_ stk hn
  · cases h <;> rfl
  · cases h <;> exact fun _ => rfl

/-- EXEC alone leaves labels of EXECUTE out: E2's data-register writes (R286). -/
theorem inExec_execute {l : ExecuteLabel} (h : Label.setsUpData (.execute l) = false) :
    inExec (.execute l) = true := by
  cases l with
  | e2Blklen | e2Resto => cases h
  | e0 | e1 | e2 | e3 | e4 | e5 | e6 | e7 | e8 => rfl

/-- An operation that runs a procedure runs all its labels, E2's data-register writes apart. -/
theorem runs_of_sameProcedure {i : Instr} {l l' : Label} (h : l.SameProcedure l') (hd : l'.setsUpData = false)
    (hr : i.runs l = true) : i.runs l' = true := by
  cases h with
  | execute l l' =>
    cases i with
    | exec => exact inExec_execute hd
    | execRd | execWr | setRate | openHost => exact hr
  | stopClock | startClock | await | issue | decode | readPump | writePump | setRate | openHost =>
    cases i <;> exact hr

/-- Every operation runs STOP_CLOCK. -/
@[simp] theorem runs_stopClock (i : Instr) (l : StopClockLabel) : i.runs (.stopClock l) = true := by cases i <;> rfl

/-- Every operation runs AWAIT. -/
@[simp] theorem runs_await (i : Instr) (l : AwaitLabel) : i.runs (.await l) = true := by cases i <;> rfl

theorem runs_issue (i : Instr) (l : IssueLabel) : i.runs (.issue l) = i.runs (.execute .e5) := by cases i <;> rfl

theorem runs_startClock (i : Instr) (l : StartClockLabel) : i.runs (.startClock l) = i.runs (.issue .i7) := by
  cases i <;> rfl

theorem runs_decode (i : Instr) (l : DecodeLabel) : i.runs (.decode l) = i.runs (.execute .e7) := by
  cases i <;> rfl

/-- An operation that runs the step after a call runs the callee, a pump apart. -/
theorem runs_callee {i : Instr} {callee back : Label} (h : callee.returnsTo back = true) (hp : callee.pumps = false)
    (hr : i.runs back = true) : i.runs callee = true := by
  cases callee with
  | stopClock l => exact runs_stopClock i l
  | await l => exact runs_await i l
  | issue l => rw [runs_issue, ← hr, beq_iff_eq.mp h]
  | startClock l => rw [runs_startClock, ← hr, beq_iff_eq.mp h]
  | decode l => rw [runs_decode, ← hr, beq_iff_eq.mp h]
  | readPump | writePump => cases hp
  | idle | execute | setRate | openHost => cases h

/-- The operation of a data request runs every label of EXECUTE, if it runs one. -/
theorem carriesOn_execute_of_data {s : State} {l l' : ExecuteLabel} (h : s.data = true) :
    s.CarriesOn (.execute l) (.execute l') := by
  intro i hd hr
  cases i with
  | exec =>
    have hw : fieldData s.rq.req = false := (data_of_decode hd rfl).1
    exact absurd (h.symm.trans hw) nofun
  | execRd | execWr | setRate | openHost => exact hr

/-- Every operation that runs E2's second write runs its third. -/
theorem carriesOn_execute_e2Resto (s : State) : s.CarriesOn (.execute .e2Blklen) (.execute .e2Resto) := by
  intro i _ hr
  cases i <;> exact hr

/-- The operation of a read request runs READ_PUMP (R285, R287). -/
theorem carriesOn_readPump {s : State} (hd : s.data = true) (hr : s.dir = false) :
    s.CarriesOn (.execute .e7) (.readPump .p0) :=
  fun _ h he => (data_of_decode h (runs_of_sameProcedure (.execute ..) rfl he)).2.1.mpr ⟨hd, hr⟩

/-- The operation of a write request runs WRITE_PUMP (R285, R288). -/
theorem carriesOn_writePump {s : State} (hd : s.data = true) (hw : s.dir = true) :
    s.CarriesOn (.execute .e7) (.writePump .w0) :=
  fun _ h he => (data_of_decode h (runs_of_sameProcedure (.execute ..) rfl he)).2.2.mpr ⟨hd, hw⟩

/-! ### The move at each label -/

theorem ret_ctl_congr {s t : State} (h : t.ctl = s.ctl) : (ret t).ctl = (ret s).ctl := by
  unfold ret
  rw [h]
  split <;> rfl

theorem raise_ctl_congr (e : Err) {s t : State} (h : t.ctl = s.ctl) : (raise e t).ctl = (raise e s).ctl := by
  unfold raise
  rw [h]
  split <;> rfl

namespace SeqMove

variable {l : Label} {s t u : State}

/-- A step within a procedure, to a label that every operation with the procedure runs. What is asked of the labels
is computed where the labels are known, here and in `enter`. -/
theorem within {l' : Label} (same : l.SameProcedure l') (ctl : t.ctl = { s.ctl with seq := l' })
    (hd : l'.setsUpData = false := by rfl) : SeqMove l s t :=
  .goto same (fun _ _ => runs_of_sameProcedure same hd) ctl

/-- A call of a procedure that every operation with the caller runs. -/
theorem enter {callee back : Label} (same : l.SameProcedure back)
    (ctl : t.ctl = { s.ctl with seq := callee, stk := back :: s.ctl.stk }) (hd : back.setsUpData = false := by rfl)
    (entry : callee.isEntry = true := by rfl) (returns : callee.returnsTo back = true := by rfl)
    (hp : callee.pumps = false := by rfl) : SeqMove l s t :=
  have own : s.CarriesOn l back := fun _ _ => runs_of_sameProcedure same hd
  .call same entry returns ⟨fun i h hr => runs_callee returns hp (own i h hr), own⟩ ctl

/-- A test moves nothing itself. -/
theorem branch {c : Prop} [Decidable c] (ht : SeqMove l s t) (hu : SeqMove l s u) :
    SeqMove l s (if c then t else u) := by
  split
  · exact ht
  · exact hu

end SeqMove

open SeqMove

theorem executeStep_move (s : State) (l : ExecuteLabel) : SeqMove (.execute l) s (executeStep s l) := by
  cases l with
  | e0 | e3 | e2Resto => exact within (.execute ..) rfl
  | e1 | e4 | e5 | e6 => exact enter (.execute ..) rfl
  | e2 =>
    simp only [executeStep]
    split
    · exact .goto (.execute ..) (carriesOn_execute_of_data ‹_›) rfl
    · exact within (.execute ..) rfl
  | e2Blklen => exact .goto (.execute ..) (carriesOn_execute_e2Resto s) rfl
  | e7 =>
    simp only [executeStep]
    split
    · rename_i hd
      have own : s.CarriesOn (.execute .e7) (.execute .e8) := carriesOn_execute_of_data hd
      rcases callPump_cases s with ⟨hw, hc⟩ | ⟨hr, hc⟩
      · exact hc ▸ .call (.execute ..) rfl rfl ⟨carriesOn_writePump hd hw, own⟩ rfl
      · exact hc ▸ .call (.execute ..) rfl rfl ⟨carriesOn_readPump hd hr, own⟩ rfl
    · exact within (.execute ..) rfl
  | e8 => exact .ret rfl

theorem stopClockStep_move (s : State) (l : StopClockLabel) : SeqMove (.stopClock l) s (stopClockStep s l) := by
  cases l with
  | s0 | s2 => exact within (.stopClock ..) rfl
  | s1 => exact branch (within (.stopClock ..) rfl) (.ret rfl)
  | s3 => exact enter (.stopClock ..) rfl
  | s4 => exact .ret rfl

theorem startClockStep_move (s : State) (l : StartClockLabel) : SeqMove (.startClock l) s (startClockStep s l) := by
  cases l with
  | t0 => exact within (.startClock ..) rfl
  | t1 => exact enter (.startClock ..) rfl
  | t2 => exact .ret rfl

theorem awaitStep_move (s : State) (l : AwaitLabel) : SeqMove (.await l) s (awaitStep s l) := by
  cases l with
  | a0 | a1 | a4 => exact within (.await ..) rfl
  | a2 => exact branch (.ret rfl) (within (.await ..) rfl)
  | a3 => exact branch (.raise _ rfl) (within (.await ..) rfl)

theorem issueStep_move (s : State) (l : IssueLabel) : SeqMove (.issue l) s (issueStep s l) := by
  cases l with
  | i0 | i1 | i2 | i3 | i4 | i5 => exact within (.issue ..) rfl
  | i6 => exact enter (.issue ..) rfl
  | i7 => exact .ret rfl

theorem decodeStep_move (s : State) (l : DecodeLabel) : SeqMove (.decode l) s (decodeStep s l) := by
  cases l with
  | dc0 | dc2 | dc3 | dc4 | dc5 | dc6 | dc7 => exact within (.decode ..) rfl
  | dc1 => exact branch (.raise _ rfl) (within (.decode ..) rfl)
  | dc8 | dc9 => exact branch (within (.decode ..) rfl) (within (.decode ..) rfl)
  | dc10 => exact branch (.ret (ret_ctl_congr rfl)) (within (.decode ..) rfl)
  | dc11 => exact .raise _ rfl
  | dc12 => exact .ret rfl

theorem readPumpStep_move (s : State) (l : ReadPumpLabel) : SeqMove (.readPump l) s (readPumpStep s l) := by
  cases l with
  | p0 | p2 | p4Store | p5 | p7 => exact within (.readPump ..) rfl
  | p1 | p3 | p4 => exact branch (within (.readPump ..) rfl) (within (.readPump ..) rfl)
  | p6 => exact branch (.raise _ rfl) (within (.readPump ..) rfl)
  | p8 => exact enter (.readPump ..) rfl
  | p9 => exact .ret rfl

theorem writePumpStep_move (s : State) (l : WritePumpLabel) : SeqMove (.writePump l) s (writePumpStep s l) := by
  cases l with
  | w0 | w2 | w4Send | w6 | w8 => exact within (.writePump ..) rfl
  | w1 | w3 | w4 => exact branch (within (.writePump ..) rfl) (within (.writePump ..) rfl)
  | w5 => exact within (.writePump .w5 .w6) (by simp [writePumpStep, signalPartial, apply_ite State.ctl])
  | w7 => exact branch (.raise _ rfl) (within (.writePump ..) rfl)
  | w9 | w10 => exact enter (.writePump ..) rfl
  | w11 => exact .ret rfl

theorem setRateStep_move (s : State) (l : SetRateLabel) : SeqMove (.setRate l) s (setRateStep s l) := by
  cases l with
  | sr0 | sr3 | sr4 | sr5 => exact within (.setRate ..) rfl
  | sr1 => exact branch (enter (.setRate ..) rfl) (within (.setRate ..) rfl)
  | sr2 => exact branch (within (.setRate ..) rfl) (within (.setRate ..) rfl)
  | sr6 => exact .ret rfl

theorem openHostStep_move (s : State) (l : OpenLabel) : SeqMove (.openHost l) s (openHostStep s l) := by
  cases l with
  | o0 => exact branch (.raise _ (raise_ctl_congr _ rfl)) (within (.openHost ..) rfl)
  | o1 => exact enter (.openHost ..) rfl
  | o2 | o3 | o4 => exact within (.openHost ..) rfl
  | o5 => exact branch (.raise _ rfl) (within (.openHost ..) rfl)
  | o6 => exact .ret (ret_ctl_congr rfl)

/-- A step of a procedure makes one of the four moves of SEQ. -/
theorem procStep_move {s : State} (h : s.ctl.seq ≠ .idle) : SeqMove s.ctl.seq s (procStep s) := by
  unfold procStep
  split <;> rename_i hl
  · exact absurd hl h
  all_goals rw [hl]
  · exact executeStep_move s _
  · exact stopClockStep_move s _
  · exact startClockStep_move s _
  · exact awaitStep_move s _
  · exact issueStep_move s _
  · exact decodeStep_move s _
  · exact readPumpStep_move s _
  · exact writePumpStep_move s _
  · exact setRateStep_move s _
  · exact openHostStep_move s _

/-! ### The block in order -/

/-- IDLE is in no call stack that calls build. -/
theorem nested_idle (stk : List Label) : nested .idle stk = false := by cases stk <;> rfl

/-- A busy block in order is at no time IDLE (R42). -/
theorem seq_ne_idle {s : State} (hb : s.ctl.busy = true) (h : seqInv s = true) : s.ctl.seq ≠ .idle := by
  intro hi
  have hn := (own_of_seqInv hb h).1
  rw [hi, nested_idle] at hn
  cases hn

/-- Each of the four moves keeps the block in order. -/
theorem seqInv_of_seqMove {s t : State} (hb : s.ctl.busy = true) (h : seqInv s = true) (hq : t.rq = s.rq)
    (hm : SeqMove s.ctl.seq s t) : seqInv t = true := by
  cases hm with
  | goto same own hc => exact move_seqInv hb h hc hq (nested_of_sameProcedure same) own
  | call same _ returns own hc =>
    obtain ⟨ownCallee, ownBack⟩ := own
    exact call_seqInv hb h hc hq returns (nested_of_sameProcedure same) fun i hd hr =>
      ⟨ownCallee i hd hr, ownBack i hd hr⟩
  | ret hc => rw [seqInv_congr hc (hq.trans (ret_fields s).1.symm), ret_seqInv hb h]
  | raise e hc => rw [seqInv_congr hc (hq.trans (raise_fields e s).1.symm), raise_seqInv hb h]

/-- A step of a procedure keeps a busy block in order. -/
theorem procStep_seqInv {s : State} (hb : s.ctl.busy = true) (h : seqInv s = true) : seqInv (procStep s) = true :=
  seqInv_of_seqMove hb h (procStep_keeps s).1 (procStep_move (seq_ne_idle hb h))

/-- An accepted request is in order at the operation's first label. -/
theorem accept_seqInv {w : Word} {i : Instr} (s : State) (h : decode w = .ok i) :
    seqInv (accept w i.start s) = true := by
  refine (seqInv_busy rfl).mpr ⟨?_, i, h, ?_, by simp⟩ <;> cases i <;> rfl

/-- Settles O38: a step of a procedure makes one of the four moves of SEQ, acceptance starts an operation it decoded,
and reset leaves the block idle. -/
theorem sequencingInvariantKept : Obligations.SequencingInvariantKept := by
  intro s t hi h
  obtain ⟨hs, ⟨_, rfl⟩ | ⟨hb, rfl, _⟩ | ⟨_, r, i, hd, _, rfl⟩ | ⟨_, rfl⟩ |
    ⟨a, v, _, _, rfl⟩⟩ := step_cases h
  · exact hi
  · exact procStep_seqInv (s := s.setHost hs) hb hi
  · exact accept_seqInv _ hd
  · exact seqInv_idle rfl
  · exact hi

end Sys2Proof.Machine
end

section
/-! PROOFS. The depth of the call stack (spec/10_state.md R41, R42). -/

namespace Sys2Proof.Machine

/-- How many calls deep a procedure can be: AWAIT in START_CLOCK in ISSUE is the deepest (R41). -/
def Label.maxDepth : Label → Nat
  | .idle | .execute _ | .setRate _ | .openHost _ => 0
  | .stopClock _ | .issue _ | .decode _ | .readPump _ | .writePump _ => 1
  | .startClock _ => 2
  | .await _ => 3

theorem maxDepth_le_three (l : Label) : l.maxDepth ≤ 3 := by cases l <;> simp [Label.maxDepth]

/-- A caller is less deep than its callee. -/
theorem maxDepth_lt_of_returnsTo {callee back : Label} (h : callee.returnsTo back = true) :
    back.maxDepth < callee.maxDepth := by
  cases callee with
  | stopClock | await =>
    simp only [Label.returnsTo, Bool.or_eq_true, beq_iff_eq, or_assoc] at h
    rcases h with rfl | rfl | rfl | rfl | rfl | rfl <;> simp [Label.maxDepth]
  | issue | startClock | decode | readPump | writePump =>
    simp [beq_iff_eq.mp h, Label.maxDepth]
  | idle | execute | setRate | openHost => cases h

/-- A call stack that calls build is no longer than its procedure is deep. -/
theorem length_le_maxDepth {l : Label} {stk : List Label} (h : nested l stk = true) : stk.length ≤ l.maxDepth := by
  induction stk generalizing l with
  | nil => exact Nat.zero_le _
  | cons back stk ih =>
    simp only [nested, Bool.and_eq_true] at h
    exact Nat.lt_of_le_of_lt (ih h.2) (maxDepth_lt_of_returnsTo h.1)

/-- Settles O39: no stack is built on IDLE, and each call goes one deeper, to AWAIT at most. -/
theorem stackHoldsAtMostThree : Obligations.StackHoldsAtMostThree := by
  intro s h
  by_cases hb : s.ctl.busy = true
  · refine ⟨⟨fun _ => seq_ne_idle hb h, fun _ => hb⟩, ?_⟩
    exact Nat.le_trans (length_le_maxDepth (own_of_seqInv hb h).1) (maxDepth_le_three _)
  · obtain ⟨hs, hk⟩ : s.ctl.seq = .idle ∧ s.ctl.stk = [] := by simpa [seqInv, hb] using h
    simp [hb, hs, hk]

end Sys2Proof.Machine
end

section
/-! PROOFS. `PCNT` (spec/10_state.md R45, spec/40_bounded_poll.md R152). -/

namespace Sys2Proof.Machine

/-- The labels of AWAIT after its start, where `PCNT` counts the reads of the poll in progress. -/
def Label.polls : Label → Bool
  | .await .a1 | .await .a2 | .await .a3 | .await .a4 => true
  | _ => false

/-- With no poll in progress nothing is asked of `PCNT`. -/
theorem pollInv_of_not_polls {s : State} (h : s.ctl.seq.polls = false) : pollInv s = true := by
  unfold pollInv
  split
  case h_1 | h_2 | h_3 | h_4 => simp_all [Label.polls]
  all_goals rfl

/-- A call begins a poll at A0, where `PCNT` counts nothing yet. -/
theorem polls_of_isEntry {l : Label} (h : l.isEntry = true) : l.polls = false := by
  cases l with
  | await a =>
    cases a with
    | a0 => rfl
    | a1 | a2 | a3 | a4 => cases h
  | _ => rfl

/-- AWAIT calls nothing, so nothing returns to it. -/
theorem polls_of_returnsTo {callee back : Label} (h : callee.returnsTo back = true) : back.polls = false := by
  cases back with
  | await a => cases callee <;> cases h
  | _ => rfl

/-- A procedure other than AWAIT goes on to no label of AWAIT. -/
theorem polls_of_sameProcedure {l l' : Label} (h : l.SameProcedure l') (hl : ∀ a, l ≠ .await a) :
    l'.polls = false := by
  cases h with
  | await a a' => exact absurd rfl (hl a)
  | _ => rfl

/-- A return ends in no poll: the operation is completed, or the caller resumed. -/
theorem ret_polls {s : State} (h : nested s.ctl.seq s.ctl.stk = true) : (ret s).ctl.seq.polls = false := by
  rcases ret_cases s with ⟨_, he⟩ | ⟨back, stk, hs, he⟩
  · rw [he]
    rfl
  · rw [hs, nested, Bool.and_eq_true] at h
    rw [he]
    exact polls_of_returnsTo h.1

/-- A raise ends in no poll: the operation is completed, or SET_RATE resumed. -/
theorem raise_polls (e : Err) (s : State) : (raise e s).ctl.seq.polls = false := by
  rcases raise_cases e s with ⟨_, he⟩ | ⟨back, stk, hs, he⟩
  · rw [he]
    rfl
  · rw [he, (catcher_some hs).1]
    rfl

/-- The step of a procedure other than AWAIT leaves no poll in progress. -/
theorem polls_of_seqMove {l : Label} {s t : State} (hn : nested s.ctl.seq s.ctl.stk = true) (hl : ∀ a, l ≠ .await a)
    (hm : SeqMove l s t) : t.ctl.seq.polls = false := by
  cases hm with
  | goto same _ hc => rw [hc]; exact polls_of_sameProcedure same hl
  | call _ entry _ _ hc => rw [hc]; exact polls_of_isEntry entry
  | ret hc => rw [hc]; exact ret_polls hn
  | raise e hc => rw [hc]; exact raise_polls e s

/-! What the bounds say at each label of a poll in progress. -/

section
variable {s : State}

theorem pollInv_a1 (hl : s.ctl.seq = .await .a1) : pollInv s = true ↔ s.poll.pcnt.toNat < Config.pollMax := by
  simp [pollInv, hl]

theorem pollInv_a2 (hl : s.ctl.seq = .await .a2) :
    pollInv s = true ↔ 1 ≤ s.poll.pcnt.toNat ∧ s.poll.pcnt.toNat ≤ Config.pollMax := by
  simp [pollInv, hl]

theorem pollInv_a3 (hl : s.ctl.seq = .await .a3) :
    pollInv s = true ↔ 1 ≤ s.poll.pcnt.toNat ∧ s.poll.pcnt.toNat ≤ Config.pollMax := by
  simp [pollInv, hl]

theorem pollInv_a4 (hl : s.ctl.seq = .await .a4) :
    pollInv s = true ↔ 1 ≤ s.poll.pcnt.toNat ∧ s.poll.pcnt.toNat < Config.pollMax := by
  simp [pollInv, hl]

end

/-- One more read counted below `POLL_MAX` does not wrap the 8 bits of `PCNT` (log 30). -/
theorem pcnt_succ {c : BitVec 8} (h : c.toNat < Config.pollMax) : (c + 1).toNat = c.toNat + 1 := by
  have hc : c.toNat < 100 := h
  bv_omega

/-- A step of AWAIT keeps the bounds: A1 alone counts, below `POLL_MAX`, and A3 lets no count of `POLL_MAX` pass. -/
theorem awaitStep_pollInv {s : State} {a : AwaitLabel} (hl : s.ctl.seq = .await a)
    (hn : nested s.ctl.seq s.ctl.stk = true) (h : pollInv s = true) : pollInv (awaitStep s a) = true := by
  cases a with
  | a0 => exact (pollInv_a1 rfl).mpr (by simp [awaitStep, Config.pollMax])
  | a1 =>
    have hc := (pollInv_a1 hl).mp h
    refine (pollInv_a2 rfl).mpr ?_
    rw [show (awaitStep s .a1).poll.pcnt.toNat = _ from pcnt_succ hc]
    exact ⟨Nat.succ_pos _, hc⟩
  | a2 =>
    simp only [awaitStep]
    split
    · exact pollInv_of_not_polls (ret_polls hn)
    · exact (pollInv_a3 rfl).mpr ((pollInv_a2 hl).mp h)
  | a3 =>
    simp only [awaitStep]
    split
    · exact pollInv_of_not_polls (raise_polls _ _)
    · rename_i hne
      obtain ⟨hpos, hle⟩ := (pollInv_a3 hl).mp h
      exact (pollInv_a4 rfl).mpr ⟨hpos, Nat.lt_of_le_of_ne hle hne⟩
  | a4 => exact (pollInv_a1 rfl).mpr ((pollInv_a4 hl).mp h).2

/-- A step of a procedure keeps the bounds of `PCNT` in a busy block in order. -/
theorem procStep_pollInv {s : State} (hb : s.ctl.busy = true) (hs : seqInv s = true) (h : pollInv s = true) :
    pollInv (procStep s) = true := by
  have hn := (own_of_seqInv hb hs).1
  by_cases ha : ∃ a, s.ctl.seq = .await a
  · obtain ⟨a, hl⟩ := ha
    have he : procStep s = awaitStep s a := by simp only [procStep, hl]
    exact he ▸ awaitStep_pollInv hl hn h
  · exact pollInv_of_not_polls (polls_of_seqMove hn (not_exists.mp ha) (procStep_move (seq_ne_idle hb hs)))

/-- The idle block of the reset state polls nothing. -/
theorem reset_pollInv : pollInv State.reset = true := pollInv_of_not_polls rfl

/-- Settles O43: outside AWAIT no move of SEQ leads into a poll in progress, and AWAIT's own steps keep the bounds. -/
theorem pollCounterBounded : Obligations.PollCounterBounded := by
  intro s t hi hp h
  obtain ⟨hs, ⟨_, rfl⟩ | ⟨hb, rfl, _⟩ | ⟨_, r, i, _, _, rfl⟩ | ⟨_, rfl⟩ |
    ⟨a, v, _, _, rfl⟩⟩ := step_cases h
  · exact hp
  · exact procStep_pollInv (s := s.setHost hs) hb hi hp
  · exact pollInv_of_not_polls (by cases i <;> rfl)
  · exact pollInv_of_not_polls rfl
  · exact hp

end Sys2Proof.Machine
end

section
/-! PROOFS. `RESP`: DECODE's DC6 alone writes it (spec/10_state.md R49). -/

namespace Sys2Proof.Machine

/-- No label but DC6 writes a response word. -/
theorem procStep_resp {s : State} (h : s.ctl.seq ≠ .decode .dc6) : (procStep s).resp = s.resp := by
  cases hl : s.ctl.seq with
  | idle => simp [procStep, hl]
  | execute l => cases l <;> simp [procStep, hl, executeStep, callPump, apply_ite State.resp]
  | stopClock l => cases l <;> simp [procStep, hl, stopClockStep, apply_ite State.resp]
  | startClock l => cases l <;> simp [procStep, hl, startClockStep]
  | await l => cases l <;> simp [procStep, hl, awaitStep, apply_ite State.resp]
  | issue l => cases l <;> simp [procStep, hl, issueStep]
  | decode l =>
    cases l with
    | dc6 => exact absurd hl h
    | _ => simp [procStep, hl, decodeStep, apply_ite State.resp]
  | readPump l => cases l <;> simp [procStep, hl, readPumpStep, apply_ite State.resp]
  | writePump l => cases l <;> simp [procStep, hl, writePumpStep, signalPartial, apply_ite State.resp]
  | setRate l => cases l <;> simp [procStep, hl, setRateStep, apply_ite State.resp]
  | openHost l => cases l <;> simp [procStep, hl, openHostStep, apply_ite State.resp]

/-- Settles O52: of all that a step can be, only the step at DC6 and reset change `RESP`. -/
theorem onlyDecodeWritesResponse : Obligations.OnlyDecodeWritesResponse := by
  intro s t h hne
  obtain ⟨hs, ⟨_, rfl⟩ | ⟨_, rfl, _⟩ | ⟨_, r, i, _, _, rfl⟩ | ⟨hh, rfl⟩ |
    ⟨a, v, _, _, rfl⟩⟩ := step_cases h
  · exact absurd rfl hne
  · exact .inl (Decidable.byContradiction fun hl => hne (procStep_resp (s := s.setHost hs) hl))
  · exact absurd rfl hne
  · exact .inr ⟨hs, hh⟩
  · exact absurd rfl hne

end Sys2Proof.Machine
end

section
/-! PROOFS. The latched request, from acceptance to completion (spec/10_state.md R43, spec/30_encoding.md R110). -/

namespace Sys2Proof.Machine

/-- While busy, only the reset input changes the latched request. -/
theorem step_rq {s t : State} (hb : s.ctl.busy = true) (hr : ∀ rest, s.host ≠ .reset :: rest)
    (h : step s = .next t) : t.rq = s.rq := by
  obtain ⟨hs, ⟨_, rfl⟩ | ⟨_, rfl, _⟩ | ⟨hn, _⟩ | ⟨hh, _⟩ | ⟨a, v, _, _, rfl⟩⟩ := step_cases h
  · rfl
  · exact (procStep_keeps (s.setHost hs)).1
  · exact absurd (hb.symm.trans hn) nofun
  · exact absurd hh (hr hs)
  · rfl

/-- Settles O10: an idle block accepts an admitted request, and no step of a procedure writes the latch. -/
theorem acceptanceLatchesRequest : Obligations.AcceptanceLatchesRequest :=
  ⟨fun _ _ hb hw => ⟨_, exec_idle hb hw, rfl, rfl, rfl, rfl, rfl, rfl, rfl, rfl⟩, fun _ _ => step_rq⟩

end Sys2Proof.Machine
end

section
/-! PROOFS. The invariants at reset (spec/70_reset_and_hazards.md R420). -/

namespace Sys2Proof.Machine

/-- The model's reset record says Ok and names no site (log 1). -/
theorem reset_siteInv : siteInv State.reset = true := by decide

/-- No pump is in progress and no request latched at reset. -/
theorem reset_bufferInv : bufferInv State.reset = true := by decide

/-- Settles O6, invariant by invariant. -/
theorem resetMeetsInvariants : Obligations.ResetMeetsInvariants :=
  ⟨seqInv_idle rfl, reset_pollInv, reset_chunkInv, reset_siteInv, reset_bufferInv, reset_mem_wf⟩

end Sys2Proof.Machine
end

section
/-! PROOFS. The cursor of a pump (spec/20_memory.md R82, R95; spec/44_data_pump.md R249). -/

namespace Sys2Proof.Machine

/-- What the buffer invariant asks of the cursor at a label: nothing, or where it stands between chunks, within a chunk,
within one with a byte left to move, or at its end. -/
inductive CursorClaim where
  | nothing
  | betweenChunks
  | withinChunk
  | byteLeft
  | chunkDone

/-- The claim at each label, the same for the two pumps (R241, R242). -/
def Label.cursorClaim : Label → CursorClaim
  | .readPump l =>
    match l with
    | .p0 | .p8 | .p9 => .nothing
    | .p1 | .p2 | .p3 | .p6 | .p7 => .betweenChunks
    | .p4 => .withinChunk
    | .p4Store => .byteLeft
    | .p5 => .chunkDone
  | .writePump l =>
    match l with
    | .w0 | .w9 | .w10 | .w11 => .nothing
    | .w1 | .w2 | .w3 | .w7 | .w8 => .betweenChunks
    | .w4 => .withinChunk
    | .w4Send => .byteLeft
    | .w5 | .w6 => .chunkDone
  | _ => .nothing

/-- The claim, of the registers of a state. -/
def CursorClaim.Holds (s : State) : CursorClaim → Prop
  | .nothing => True
  | .betweenChunks => Machine.betweenChunks s = true
  | .withinChunk => Machine.withinChunk s = true
  | .byteLeft => Machine.withinChunk s = true ∧ s.pump.j < s.pump.chunk
  | .chunkDone => Machine.withinChunk s = true ∧ s.pump.j = s.pump.chunk

/-- The buffer invariant: the range of a request in flight fits, and the claim of the label holds. -/
theorem bufferInv_iff {s : State} :
    bufferInv s = true ↔ (s.ctl.busy = true → rangeFits s = true) ∧ s.ctl.seq.cursorClaim.Holds s := by
  have hb : (!s.ctl.busy || rangeFits s) = true ↔ (s.ctl.busy = true → rangeFits s = true) := by
    cases s.ctl.busy <;> simp
  rw [bufferInv, Bool.and_eq_true, hb]
  cases s.ctl.seq with
  | readPump l => cases l <;> simp [Label.cursorClaim, CursorClaim.Holds]
  | writePump l => cases l <;> simp [Label.cursorClaim, CursorClaim.Holds]
  | _ => simp [Label.cursorClaim, CursorClaim.Holds]

/-! ### Where the cursor stands -/

theorem betweenChunks_iff {s : State} :
    betweenChunks s = true ↔ s.pump.rem ≤ s.length ∧ s.pump.cur = s.rq.buf + (s.length - s.pump.rem) := by
  simp [betweenChunks]

theorem withinChunk_iff {s : State} :
    withinChunk s = true ↔
      s.pump.rem ≤ s.length ∧ s.pump.chunk ≤ s.pump.rem ∧ s.pump.j ≤ s.pump.chunk ∧
        s.pump.cur = s.rq.buf + (s.length - s.pump.rem) + s.pump.j := by
  simp [withinChunk, and_assoc]

/-- A chunk is part of what remains (R243). -/
theorem chunkSize_le (rem : Word) : chunkSize rem ≤ rem := by
  unfold chunkSize
  split
  · exact BitVec.le_refl _
  · exact BitVec.le_of_lt (BitVec.not_le.mp ‹_›)

/-- A pump starts at `BUF` with all `N` bytes to move. -/
theorem startPump_betweenChunks (s : State) : betweenChunks (startPump s) = true := by
  rw [betweenChunks_iff]
  simp [State.length]

/-- A chunk starts where the bytes moved end. -/
theorem startChunk_withinChunk {s : State} (h : betweenChunks s = true) : withinChunk (startChunk s) = true := by
  obtain ⟨hle, hcur⟩ := betweenChunks_iff.mp h
  exact withinChunk_iff.mpr ⟨hle, chunkSize_le _, Nat.zero_le _, hcur.trans (BitVec.add_zero _).symm⟩

/-- One byte moved takes the cursor one on, within the chunk. -/
theorem advanceByte_withinChunk {s : State} (h : withinChunk s = true) (hj : s.pump.j < s.pump.chunk) :
    withinChunk (advanceByte s) = true := by
  obtain ⟨hle, hchunk, -, hcur⟩ := withinChunk_iff.mp h
  have hnext : s.pump.j + 1 ≤ s.pump.chunk := by bv_omega
  have hcur' : s.pump.cur + 1 = s.rq.buf + (s.length - s.pump.rem) + (s.pump.j + 1) := by
    rw [hcur, BitVec.add_assoc]
  exact withinChunk_iff.mpr ⟨hle, hchunk, hnext, hcur'⟩

/-- The bytes of a whole chunk are no longer among what remains. -/
theorem endChunk_betweenChunks {s : State} (h : withinChunk s = true) (hj : s.pump.j = s.pump.chunk) :
    betweenChunks (endChunk s) = true := by
  obtain ⟨hle, hchunk, -, hcur⟩ := withinChunk_iff.mp h
  rw [hj] at hcur
  rw [betweenChunks_iff]
  show s.pump.rem - s.pump.chunk ≤ s.length ∧ s.pump.cur = s.rq.buf + (s.length - (s.pump.rem - s.pump.chunk))
  constructor <;> bv_omega

/-- The end of a chunk, where no byte is left to move. -/
theorem chunkDone_of_not_lt {s : State} (h : withinChunk s = true) (hj : ¬ s.pump.j < s.pump.chunk) :
    withinChunk s = true ∧ s.pump.j = s.pump.chunk := by
  obtain ⟨-, -, hle, -⟩ := withinChunk_iff.mp h
  exact ⟨h, BitVec.le_antisymm hle (BitVec.not_lt.mp hj)⟩

/-! ### Labels where nothing is asked -/

/-- A procedure begins before any byte is moved. -/
theorem cursorClaim_of_isEntry {l : Label} (h : l.isEntry = true) : l.cursorClaim = .nothing := by
  cases l with
  | readPump l =>
    cases l with
    | p0 => rfl
    | _ => cases h
  | writePump l =>
    cases l with
    | w0 => rfl
    | _ => cases h
  | _ => rfl

/-- A pump is returned to after its last byte alone, by the final waits. -/
theorem cursorClaim_of_returnsTo {callee back : Label} (h : callee.returnsTo back = true) :
    back.cursorClaim = .nothing := by
  cases back with
  | readPump l =>
    cases l with
    | p9 => rfl
    | _ => cases callee <;> cases h
  | writePump l =>
    cases l with
    | w10 | w11 => rfl
    | _ => cases callee <;> cases h
  | _ => rfl

/-- A return ends the operation or resumes a caller after its last byte. -/
theorem ret_cursorClaim {s : State} (hn : nested s.ctl.seq s.ctl.stk = true) :
    (ret s).ctl.seq.cursorClaim = .nothing := by
  rcases ret_cases s with ⟨_, he⟩ | ⟨back, stk, hs, he⟩
  · rw [he]
    rfl
  · rw [hs, nested, Bool.and_eq_true] at hn
    rw [he]
    exact cursorClaim_of_returnsTo hn.1

/-- A raise ends the operation or resumes SET_RATE. -/
theorem raise_cursorClaim (e : Err) (s : State) : (raise e s).ctl.seq.cursorClaim = .nothing := by
  rcases raise_cases e s with ⟨_, he⟩ | ⟨back, stk, hs, he⟩
  · rw [he]
    rfl
  · rw [he, (catcher_some hs).1]
    rfl

/-- The step of a procedure that is no pump leaves nothing asked of the cursor. -/
theorem cursorClaim_of_seqMove {l : Label} {s t : State} (hn : nested s.ctl.seq s.ctl.stk = true)
    (hl : l.pumps = false) (hm : SeqMove l s t) : t.ctl.seq.cursorClaim = .nothing := by
  cases hm with
  | goto same _ hc =>
    rw [hc]
    cases same with
    | readPump | writePump => cases hl
    | _ => rfl
  | call _ entry _ _ hc => rw [hc]; exact cursorClaim_of_isEntry entry
  | ret hc => rw [hc]; exact ret_cursorClaim hn
  | raise e hc => rw [hc]; exact raise_cursorClaim e s

/-! ### The claim kept -/

/-- The cursor stands where the label of `s` says. -/
def State.CursorHolds (s : State) : Prop := s.ctl.seq.cursorClaim.Holds s

theorem cursorHolds_of_nothing {s : State} (h : s.ctl.seq.cursorClaim = .nothing) : s.CursorHolds := by
  rw [State.CursorHolds, h]
  trivial

/-- A step of READ_PUMP leaves the cursor where its next label says. -/
theorem readPumpStep_cursorHolds {s : State} {l : ReadPumpLabel} (hn : nested s.ctl.seq s.ctl.stk = true)
    (h : (Label.readPump l).cursorClaim.Holds s) : (readPumpStep s l).CursorHolds := by
  cases l with
  | p0 => exact startPump_betweenChunks s
  | p1 => exact iteInduction (fun _ => trivial) fun _ => h
  | p2 | p7 => exact h
  | p3 => exact iteInduction (fun _ => startChunk_withinChunk h) fun _ => h
  | p4 => exact iteInduction (fun hj => ⟨h, hj⟩) fun hj => chunkDone_of_not_lt h hj
  | p4Store => exact advanceByte_withinChunk h.1 h.2
  | p5 => exact endChunk_betweenChunks h.1 h.2
  | p6 => exact iteInduction (fun _ => cursorHolds_of_nothing (raise_cursorClaim _ s)) fun _ => h
  | p8 => trivial
  | p9 => exact cursorHolds_of_nothing (ret_cursorClaim hn)

/-- A step of WRITE_PUMP leaves the cursor where its next label says. -/
theorem writePumpStep_cursorHolds {s : State} {l : WritePumpLabel} (hn : nested s.ctl.seq s.ctl.stk = true)
    (h : (Label.writePump l).cursorClaim.Holds s) : (writePumpStep s l).CursorHolds := by
  cases l with
  | w0 => exact startPump_betweenChunks s
  | w1 => exact iteInduction (fun _ => trivial) fun _ => h
  | w2 | w8 => exact h
  | w3 => exact iteInduction (fun _ => startChunk_withinChunk h) fun _ => h
  | w4 => exact iteInduction (fun hj => ⟨h, hj⟩) fun hj => chunkDone_of_not_lt h hj
  | w4Send => exact advanceByte_withinChunk h.1 h.2
  | w5 =>
    rcases signalPartial_cases s with ⟨_, he⟩ | ⟨_, he⟩
    · rw [writePumpStep, he]
      exact h
    · rw [writePumpStep, he]
      exact h
  | w6 => exact endChunk_betweenChunks h.1 h.2
  | w7 => exact iteInduction (fun _ => cursorHolds_of_nothing (raise_cursorClaim _ s)) fun _ => h
  | w9 | w10 => trivial
  | w11 => exact cursorHolds_of_nothing (ret_cursorClaim hn)

/-- A step of a procedure leaves the cursor where its next label says. -/
theorem procStep_cursorHolds {s : State} (hb : s.ctl.busy = true) (hs : seqInv s = true) (h : s.CursorHolds) :
    (procStep s).CursorHolds := by
  have hn := (own_of_seqInv hb hs).1
  have hm := procStep_move (seq_ne_idle hb hs)
  cases hl : s.ctl.seq with
  | readPump l =>
    rw [State.CursorHolds, hl] at h
    simpa only [procStep, hl] using readPumpStep_cursorHolds hn h
  | writePump l =>
    rw [State.CursorHolds, hl] at h
    simpa only [procStep, hl] using writePumpStep_cursorHolds hn h
  | _ => exact cursorHolds_of_nothing (cursorClaim_of_seqMove hn (by rw [hl]; rfl) hm)

/-- The range that fits is that of a data request. -/
theorem rangeFits_iff {s : State} :
    rangeFits s = true ↔
      (fieldOp s.rq.req = 0b00 → s.data = true →
        s.rq.buf.toNat + s.rq.blocks.toNat * s.rq.blksize.toNat ≤ 2 ^ 32) := by
  by_cases hop : fieldOp s.rq.req = 0#2
  · cases hd : s.data <;> simp [rangeFits, hop, hd]
  · simp [rangeFits, hop]

/-- The range rests on the latched request alone. -/
theorem rangeFits_congr {s t : State} (h : t.rq = s.rq) : rangeFits t = rangeFits s := by
  simp only [rangeFits, State.data, h]

/-- A step of a procedure keeps the buffer invariant of a busy block in order. -/
theorem procStep_bufferInv {s : State} (hb : s.ctl.busy = true) (hs : seqInv s = true) (h : bufferInv s = true) :
    bufferInv (procStep s) = true := by
  obtain ⟨hfits, hcur⟩ := bufferInv_iff.mp h
  refine bufferInv_iff.mpr ⟨fun _ => ?_, procStep_cursorHolds hb hs hcur⟩
  rw [rangeFits_congr (procStep_keeps s).1]
  exact hfits hb

/-- An EXECUTE word with `DATA = 1` is that of an operation with a data phase (R137). -/
theorem hasData_of_decode {w : Word} {i : Instr} (h : decode w = .ok i) (hop : fieldOp w = 0b00)
    (hd : fieldData w = true) : i.hasData = true := by
  cases i with
  | execRd | execWr => rfl
  | exec => exact (data_of_decode h rfl).1 ▸ hd
  | setRate | openHost =>
    rw [← encode_of_decode h] at hop
    exact absurd hop (by decide)

/-- An admitted request's range fits (R82, R95). -/
theorem accept_rangeFits {w : Word} {i : Instr} {s : State} (h : decode w = .ok i)
    (hw : i.wellFormed s.port = true) : rangeFits (accept w i.start s) = true := by
  refine rangeFits_iff.mpr fun hop hd => ?_
  have hfits : s.port.bufferFits = true := by simpa [Instr.wellFormed, hasData_of_decode h hop hd] using hw
  exact of_decide_eq_true hfits

/-- Acceptance starts an operation before its pump. -/
theorem accept_bufferInv {w : Word} {i : Instr} {s : State} (h : decode w = .ok i)
    (hw : i.wellFormed s.port = true) : bufferInv (accept w i.start s) = true := by
  refine bufferInv_iff.mpr ⟨fun _ => accept_rangeFits h hw, cursorHolds_of_nothing ?_⟩
  cases i <;> rfl

/-- Settles O45: a pump's step leads from the claim of its label to that of the next one, no other procedure leads into
a pump but at its first label or after its last byte, and acceptance admits a data request only if its range fits. -/
theorem bufferInvariantKept : Obligations.BufferInvariantKept := by
  intro s t hs hi h
  obtain ⟨rest, ⟨_, rfl⟩ | ⟨hb, rfl, _⟩ | ⟨_, r, i, hd, hw, rfl⟩ | ⟨_, rfl⟩ |
    ⟨a, v, _, _, rfl⟩⟩ := step_cases h
  · exact hi
  · exact procStep_bufferInv (s := s.setHost rest) hb hs hi
  · exact accept_bufferInv hd hw
  · exact reset_bufferInv
  · exact hi

end Sys2Proof.Machine
end

section
/-! PROOFS. The host port: the host's store and the moves that no block in order answers with a fault
(spec/20_memory.md R94, R96; spec/30_encoding.md R110; spec/70_reset_and_hazards.md R423). -/

namespace Sys2Proof.Machine

/-- The block owns the buffer range of the data EXECUTE in flight (R94). -/
theorem owns_iff {s : State} {a : Word} :
    s.owns a = true ↔
      s.ctl.busy = true ∧ fieldOp s.rq.req = 0b00 ∧ s.data = true ∧ s.rq.buf.toNat ≤ a.toNat ∧
        a.toNat < s.rq.buf.toNat + s.rq.blocks.toNat * s.rq.blksize.toNat := by
  simp [State.owns, Latched.covers, and_assoc]

/-- The host's store move is answered by the port. -/
theorem step_store {s : State} {a : Word} {v : Byte} {rest : List HostMove} (h : s.host = .store a v :: rest) :
    step s = hostStore a v (s.setHost rest) := by
  simp only [step, machineStep, h]

/-- Settles O9: the port refuses exactly the bytes the block owns. -/
theorem hostWritesOutsideOwnedBuffer : Obligations.HostWritesOutsideOwnedBuffer := by
  intro s a v rest hh
  rw [step_store hh]
  constructor
  · intro hb hop hd hlo hhi
    exact if_pos (owns_iff (s := s.setHost rest).mpr ⟨hb, hop, hd, hlo, hhi⟩)
  · intro hfree
    refine if_neg fun ho => ?_
    obtain ⟨hb, hop, hd, hlo, hhi⟩ := owns_iff.mp ho
    rcases hfree with h | h | h | h | h
    · exact absurd (h.symm.trans hb) nofun
    · exact h hop
    · exact absurd (h.symm.trans hd) nofun
    · exact Nat.not_lt.mpr hlo h
    · exact Nat.not_lt.mpr h hhi

/-- An idle block accepts or refuses, and never faults. -/
theorem runWord_idle_ne_fault {w : Word} {s : State} (f : Fault) (hb : s.ctl.busy = false) :
    runWord w s ≠ .fault f := by
  cases hd : decode w with
  | error why => simp [runWord, hd]
  | ok i => cases hw : i.wellFormed s.port <;> simp [runWord, hd, exec_eq_serve, serve, hb, hw]

/-- The block's own move in order is a step of the request in flight, or a wait. -/
theorem advance_of_seqInv {s : State} (h : seqInv s = true) :
    advance s = .next (if s.ctl.busy then procStep s else s) := by
  cases hb : s.ctl.busy with
  | false => simp [advance, hb]
  | true =>
    obtain ⟨_, i, hd, hr, _⟩ := own_of_seqInv hb h
    simp [advance, hb, runWord, hd, exec_busy hb (encode_of_decode hd).symm hr]

/-- The block's own move in order does not fault. -/
theorem advance_ne_fault {s : State} (f : Fault) (h : seqInv s = true) : advance s ≠ .fault f := by
  rw [advance_of_seqInv h]
  exact nofun

/-- Settles O40: a request in flight is at a label its operation runs, an idle block accepts or refuses, and no move of
the host is answered with a fault. -/
theorem noStepFaultsInOrder : Obligations.NoStepFaultsInOrder := by
  intro s f hi
  unfold step machineStep
  split
  · exact advance_ne_fault f hi
  · split
    · exact advance_ne_fault f hi
    · exact runWord_idle_ne_fault f (Bool.eq_false_iff.mpr ‹_›)
  · split
    · exact nofun
    · exact runWord_idle_ne_fault f (Bool.eq_false_iff.mpr ‹_›)
  · exact nofun
  · unfold hostStore
    split <;> exact nofun
  · rename_i rest _
    exact advance_ne_fault (s := s.setHost rest) f hi

end Sys2Proof.Machine
end

section
/-! PROOFS. Buffer accesses of a step: which labels write memory, and which addresses the trace gains
(spec/20_memory.md R82; spec/44_data_pump.md R241, R242). -/

namespace Sys2Proof.Machine

/-! ### Memory -/

/-- No label but P4's store writes memory. -/
theorem procStep_mem {s : State} (h : s.ctl.seq ≠ .readPump .p4Store) : (procStep s).mem = s.mem := by
  cases hl : s.ctl.seq with
  | idle => simp [procStep, hl]
  | execute l => cases l <;> simp [procStep, hl, executeStep, callPump, apply_ite State.mem]
  | stopClock l => cases l <;> simp [procStep, hl, stopClockStep, apply_ite State.mem]
  | startClock l => cases l <;> simp [procStep, hl, startClockStep]
  | await l => cases l <;> simp [procStep, hl, awaitStep, apply_ite State.mem]
  | issue l => cases l <;> simp [procStep, hl, issueStep]
  | decode l => cases l <;> simp [procStep, hl, decodeStep, apply_ite State.mem]
  | readPump l =>
    cases l with
    | p4Store => exact absurd hl h
    | _ => simp [procStep, hl, readPumpStep, apply_ite State.mem]
  | writePump l => cases l <;> simp [procStep, hl, writePumpStep, signalPartial, apply_ite State.mem]
  | setRate l => cases l <;> simp [procStep, hl, setRateStep, apply_ite State.mem]
  | openHost l => cases l <;> simp [procStep, hl, openHostStep, apply_ite State.mem]

/-- P4's store writes the low byte of the word read at the cursor. -/
theorem procStep_mem_p4Store {s : State} (h : s.ctl.seq = .readPump .p4Store) :
    (procStep s).mem = s.mem.write s.pump.cur.toNat (lowByte s.pump.v) := by
  simp [procStep, h, readPumpStep]

/-- A step of a procedure keeps the canonical form. -/
theorem procStep_mem_wf {s : State} (h : s.mem.wf = true) : (procStep s).mem.wf = true := by
  by_cases hl : s.ctl.seq = .readPump .p4Store
  · rw [procStep_mem_p4Store hl]
    exact write_wf _ s.pump.cur.isLt h
  · rw [procStep_mem hl]
    exact h

/-- Settles O41: P4's store and the host's are the only writes, and a write keeps the form. -/
theorem memoryFormKept : Obligations.MemoryFormKept := by
  intro s t hw h
  obtain ⟨rest, ⟨_, rfl⟩ | ⟨_, rfl, _⟩ | ⟨_, r, i, _, _, rfl⟩ | ⟨_, rfl⟩ | ⟨a, v, _, _, rfl⟩⟩ := step_cases h
  · exact hw
  · exact procStep_mem_wf (s := s.setHost rest) hw
  · exact hw
  · exact hw
  · exact write_wf v a.isLt hw

/-! ### The trace -/

/-- The address of a buffer access. -/
def Event.bufferAddress : Event → Option Word
  | .memRead a _ | .memWrite a _ => some a
  | .read .. | .write .. | .delay => none

/-- The addresses of the buffer accesses of a trace, in its order. -/
def accessed (trace : List Event) : List Word := trace.filterMap Event.bufferAddress

section
variable (a : Word) (v : Byte) (offset value : Word) (trace : List Event)
@[simp] theorem accessed_memRead : accessed (.memRead a v :: trace) = a :: accessed trace := rfl
@[simp] theorem accessed_memWrite : accessed (.memWrite a v :: trace) = a :: accessed trace := rfl
@[simp] theorem accessed_read : accessed (.read offset value :: trace) = accessed trace := rfl
@[simp] theorem accessed_write : accessed (.write offset value :: trace) = accessed trace := rfl
@[simp] theorem accessed_delay : accessed (.delay :: trace) = accessed trace := rfl
end

/-- Does the step at SEQ access the buffer: P4's store, or W4's fetch of a byte left in the chunk? -/
def State.accessesBuffer (s : State) : Bool :=
  match s.ctl.seq with
  | .readPump .p4Store => true
  | .writePump .w4 => decide (s.pump.j < s.pump.chunk)
  | _ => false

theorem readPumpStep_accessed (s : State) (l : ReadPumpLabel) :
    accessed (readPumpStep s l).trace = if l = .p4Store then s.pump.cur :: accessed s.trace else accessed s.trace := by
  cases l <;> simp [readPumpStep, apply_ite State.trace, apply_ite accessed]

theorem writePumpStep_accessed (s : State) (l : WritePumpLabel) :
    accessed (writePumpStep s l).trace =
      if l = .w4 ∧ s.pump.j < s.pump.chunk then s.pump.cur :: accessed s.trace else accessed s.trace := by
  cases l <;> simp [writePumpStep, signalPartial, apply_ite State.trace, apply_ite accessed]

/-- A step of a procedure accesses the buffer at the cursor, and only at the two labels that move a byte. -/
theorem procStep_accessed (s : State) :
    accessed (procStep s).trace = if s.accessesBuffer then s.pump.cur :: accessed s.trace else accessed s.trace := by
  cases hl : s.ctl.seq with
  | idle => simp [procStep, hl, State.accessesBuffer]
  | execute l =>
    cases l <;> simp [procStep, hl, State.accessesBuffer, executeStep, callPump, apply_ite State.trace,
      apply_ite accessed]
  | stopClock l =>
    cases l <;> simp [procStep, hl, State.accessesBuffer, stopClockStep, apply_ite State.trace]
  | startClock l => cases l <;> simp [procStep, hl, State.accessesBuffer, startClockStep]
  | await l =>
    cases l <;> simp [procStep, hl, State.accessesBuffer, awaitStep, apply_ite State.trace]
  | issue l => cases l <;> simp [procStep, hl, State.accessesBuffer, issueStep]
  | decode l =>
    cases l <;> simp [procStep, hl, State.accessesBuffer, decodeStep, apply_ite State.trace]
  | readPump l => cases l <;> simp [procStep, hl, State.accessesBuffer, readPumpStep_accessed]
  | writePump l => cases l <;> simp [procStep, hl, State.accessesBuffer, writePumpStep_accessed]
  | setRate l =>
    cases l <;> simp [procStep, hl, State.accessesBuffer, setRateStep, apply_ite State.trace, apply_ite accessed]
  | openHost l =>
    cases l <;> simp [procStep, hl, State.accessesBuffer, openHostStep, apply_ite State.trace]

/-- The two labels that move a byte (R241, R242). -/
theorem accessesBuffer_iff {s : State} :
    s.accessesBuffer = true ↔
      s.ctl.seq = .readPump .p4Store ∨ s.ctl.seq = .writePump .w4 ∧ s.pump.j < s.pump.chunk := by
  unfold State.accessesBuffer
  split <;> simp_all

/-! ### The range -/

/-- The word of an operation that runs EXECUTE has `OP = 00` (R112). -/
theorem fieldOp_of_decode {w : Word} {i : Instr} (h : decode w = .ok i) (hr : i.runs (.execute .e0) = true) :
    fieldOp w = 0b00 := by
  by_cases hop : fieldOp w = 0b00
  · exact hop
  · unfold decode at h
    rw [if_neg hop] at h
    repeat' split at h
    all_goals cases h
    all_goals cases hr

/-- An operation that runs a pump is an EXECUTE with a data phase (R137, R285). -/
theorem hasData_of_runs_pumps {i : Instr} {l : Label} (hp : l.pumps = true) (hr : i.runs l = true) :
    i.runs (.execute .e0) = true ∧ i.hasData = true := by
  cases l with
  | readPump =>
    cases i with
    | execRd => exact ⟨rfl, rfl⟩
    | _ => cases hr
  | writePump =>
    cases i with
    | execWr => exact ⟨rfl, rfl⟩
    | _ => cases hr
  | _ => cases hp

/-- While a pump runs, the latched word is that of a data EXECUTE. -/
theorem dataExecute_of_pumps {s : State} (hb : s.ctl.busy = true) (hs : seqInv s = true)
    (hp : s.ctl.seq.pumps = true) : fieldOp s.rq.req = 0b00 ∧ s.data = true := by
  obtain ⟨_, i, hd, hr, _⟩ := own_of_seqInv hb hs
  obtain ⟨hexec, hdata⟩ := hasData_of_runs_pumps hp hr
  exact ⟨fieldOp_of_decode hd hexec, (data_of_decode hd hexec).1.trans hdata⟩

/-- `N` is exact in 32 bits (R240). -/
theorem length_toNat (s : State) : s.length.toNat = s.rq.blocks.toNat * s.rq.blksize.toNat := by
  have h : s.rq.blocks.toNat * s.rq.blksize.toNat < 2 ^ 16 * 2 ^ 16 :=
    Nat.mul_lt_mul'' s.rq.blocks.isLt s.rq.blksize.isLt
  simp [State.length, transferLength]
  omega

/-- With a byte left in the chunk, the cursor is an address of the range. -/
theorem cursor_in_range {s : State} (h : withinChunk s = true) (hj : s.pump.j < s.pump.chunk)
    (hfits : s.rq.buf.toNat + s.rq.blocks.toNat * s.rq.blksize.toNat ≤ 2 ^ 32) :
    s.rq.buf.toNat ≤ s.pump.cur.toNat ∧
      s.pump.cur.toNat < s.rq.buf.toNat + s.rq.blocks.toNat * s.rq.blksize.toNat := by
  obtain ⟨hle, hchunk, -, hcur⟩ := withinChunk_iff.mp h
  rw [← length_toNat] at hfits ⊢
  constructor <;> bv_omega

/-- A buffer access of a busy block in order is inside the range of the latched request. -/
theorem accessesBuffer_in_range {s : State} (hb : s.ctl.busy = true) (hs : seqInv s = true)
    (hi : bufferInv s = true) (ha : s.accessesBuffer = true) :
    s.rq.buf.toNat ≤ s.pump.cur.toNat ∧
      s.pump.cur.toNat < s.rq.buf.toNat + s.rq.blocks.toNat * s.rq.blksize.toNat := by
  obtain ⟨hfits, hcur⟩ := bufferInv_iff.mp hi
  obtain ⟨hp, hw, hj⟩ : s.ctl.seq.pumps = true ∧ withinChunk s = true ∧ s.pump.j < s.pump.chunk := by
    rcases accessesBuffer_iff.mp ha with hl | ⟨hl, hj⟩ <;> rw [hl] at hcur ⊢
    · exact ⟨rfl, hcur⟩
    · exact ⟨rfl, hcur, hj⟩
  obtain ⟨hop, hd⟩ := dataExecute_of_pumps hb hs hp
  exact cursor_in_range hw hj (rangeFits_iff.mp (hfits hb) hop hd)

/-- Settles O46: only the step at SEQ accesses the buffer, and it does so at the cursor, with a byte left to move. -/
theorem bufferAccessesStayInRange : Obligations.BufferAccessesStayInRange := by
  intro s t a v hs hi h hacc
  have hadds : accessed t.trace = a :: accessed s.trace := by
    rcases hacc with he | he <;> rw [he] <;> rfl
  have hsilent : accessed s.trace ≠ a :: accessed s.trace := (List.cons_ne_self _ _).symm
  obtain ⟨rest, ⟨_, rfl⟩ | ⟨hb, rfl, _⟩ | ⟨_, r, i, _, _, rfl⟩ | ⟨_, rfl⟩ | ⟨b, w, _, _, rfl⟩⟩ := step_cases h
  · exact absurd hadds hsilent
  · rw [procStep_accessed] at hadds
    split at hadds
    · rename_i ha
      have hcur : s.pump.cur = a := (List.cons.inj hadds).1
      exact hcur ▸ accessesBuffer_in_range (s := s.setHost rest) hb hs hi ha
    · exact absurd hadds hsilent
  · exact absurd hadds hsilent
  · exact absurd hadds hsilent
  · exact absurd hadds hsilent

end Sys2Proof.Machine
end

section
/-! PROOFS. The encoder: the fields of R112 in an EXECUTE word, and decoding it again (spec/30_encoding.md R112 to
R115, R137). -/

namespace Sys2Proof

/-- The fields of R112 in an EXECUTE word. -/
@[simp] theorem encodeExecute_fields (data dir : Bool) (cmd : BitVec 6) (rt : RType) (crc busyf w4 : Bool) :
    fieldOp (encodeExecute data dir cmd rt crc busyf w4) = 0b00 ∧
    fieldCmdIdx (encodeExecute data dir cmd rt crc busyf w4) = cmd ∧
    fieldRType (encodeExecute data dir cmd rt crc busyf w4) = rt.code ∧
    fieldCrc (encodeExecute data dir cmd rt crc busyf w4) = crc ∧
    fieldBusyf (encodeExecute data dir cmd rt crc busyf w4) = busyf ∧
    fieldData (encodeExecute data dir cmd rt crc busyf w4) = data ∧
    fieldDir (encodeExecute data dir cmd rt crc busyf w4) = dir ∧
    fieldW4 (encodeExecute data dir cmd rt crc busyf w4) = w4 ∧
    fieldHigh (encodeExecute data dir cmd rt crc busyf w4) = 0 := by
  refine ⟨BitVec.extractLsb'_append_eq_right, ?cmdIdx, ?rtype, ?crc, ?busyf, ?data, ?dir, ?w4, ?high⟩
  case cmdIdx | rtype =>
    simp only [fieldCmdIdx, fieldRType, encodeExecute]
    repeat rw [BitVec.extractLsb'_append_eq_of_le (by decide)]
    exact BitVec.extractLsb'_append_eq_right
  case high =>
    simp only [fieldHigh, encodeExecute]
    repeat rw [BitVec.extractLsb'_append_eq_of_le (by decide)]
    exact BitVec.extractLsb'_eq_self
  case crc | busyf | data | dir | w4 =>
    simp only [fieldCrc, fieldBusyf, fieldData, fieldDir, fieldW4, encodeExecute, BitVec.getLsbD_append]
    simp

/-- An EXECUTE word decodes to the form that its `DATA` and `DIR` select, with its own response type. -/
theorem decode_encodeExecute (data dir : Bool) (cmd : BitVec 6) (rt : RType) (crc busyf w4 : Bool) :
    decode (encodeExecute data dir cmd rt crc busyf w4) =
      decodeExecute (encodeExecute data dir cmd rt crc busyf w4) rt := by
  simp [decode]

/-- Settles O4, operation by operation: the fields of its word are its own. -/
theorem decodeOfEncode : Obligations.DecodeOfEncode := by
  intro i
  cases i with
  | exec | execRd | execWr => simp [encode, decode_encodeExecute, decodeExecute]
  | setRate | openHost => rfl

/-- Settles O1: each word is evaluated. -/
theorem decodeReadsSpecWords : Obligations.DecodeReadsSpecWords :=
  ⟨rfl, rfl, rfl, rfl, rfl, rfl, rfl, rfl, rfl⟩

/-- What a word that decodes selects (R137), and the fields it hands on (R112). -/
theorem decode_ok_cases {w : Word} {i : Instr} (h : decode w = .ok i) :
    (fieldOp w = 0b01 ∧ i = .setRate) ∨
    (fieldOp w = 0b10 ∧ i = .openHost) ∨
    (fieldOp w = 0b00 ∧ ∃ rt : RType, rt.code = fieldRType w ∧
      ((fieldData w = false ∧ i = .exec (fieldCmdIdx w) rt (fieldCrc w) (fieldBusyf w) (fieldW4 w)) ∨
       (fieldData w = true ∧ fieldDir w = false ∧
          i = .execRd (fieldCmdIdx w) rt (fieldCrc w) (fieldBusyf w) (fieldW4 w)) ∨
       (fieldData w = true ∧ fieldDir w = true ∧
          i = .execWr (fieldCmdIdx w) rt (fieldCrc w) (fieldBusyf w) (fieldW4 w)))) := by
  obtain rfl := encode_of_decode h
  cases i with
  | setRate => exact .inl ⟨rfl, rfl⟩
  | openHost => exact .inr (.inl ⟨rfl, rfl⟩)
  | exec cmd rt | execRd cmd rt | execWr cmd rt => exact .inr (.inr ⟨by simp [encode], rt, by simp [encode]⟩)

/-- Settles O3: a word that decodes is the encoding of its operation, so its fields are the operation's. -/
theorem decodeSelectsOperation : Obligations.DecodeSelectsOperation :=
  fun _ _ => decode_ok_cases

/-- The reserved response-type codes (R113). -/
theorem ofCode_eq_none_iff {c : BitVec 3} : RType.ofCode c = none ↔ c = 0b101 ∨ c = 0b110 ∨ c = 0b111 := by
  revert c
  decide

/-- The forms of EXECUTE leave one reserved combination of `DATA` and `DIR` (R115). -/
theorem decodeExecute_error_iff {w : Word} {rt : RType} :
    (∃ why, decodeExecute w rt = .error why) ↔ fieldData w = false ∧ fieldDir w = true := by
  cases hdata : fieldData w <;> cases hdir : fieldDir w <;> simp [decodeExecute, hdata, hdir]

/-- Which EXECUTE words are reserved (R115). -/
theorem decode_error_iff_of_execute {w : Word} (hop : fieldOp w = 0b00) :
    (∃ why, decode w = .error why) ↔
      fieldHigh w ≠ 0 ∨ RType.ofCode (fieldRType w) = none ∨ (fieldData w = false ∧ fieldDir w = true) := by
  by_cases hhigh : fieldHigh w = 0#16
  · cases hrt : RType.ofCode (fieldRType w) with
    | none => simp [decode, hop, hhigh, hrt]
    | some rt => simp [decode, hop, hhigh, hrt, decodeExecute_error_iff]
  · simp [decode, hop, hhigh]

/-- Which words are reserved, `OP` by `OP` (R115). -/
theorem decode_error_iff {w : Word} :
    (∃ why, decode w = .error why) ↔
      fieldOp w = 0b11 ∨
      ((fieldOp w = 0b01 ∨ fieldOp w = 0b10) ∧ fieldFixed w ≠ 0) ∨
      (fieldOp w = 0b00 ∧ fieldHigh w ≠ 0) ∨
      (fieldOp w = 0b00 ∧ (fieldRType w = 0b101 ∨ fieldRType w = 0b110 ∨ fieldRType w = 0b111)) ∨
      (fieldOp w = 0b00 ∧ fieldData w = false ∧ fieldDir w = true) := by
  have hcases : ∀ op : BitVec 2, op = 0b00 ∨ op = 0b01 ∨ op = 0b10 ∨ op = 0b11 := by decide
  rcases hcases (fieldOp w) with hop | hop | hop | hop
  · simp [decode_error_iff_of_execute hop, hop, ofCode_eq_none_iff]
  · by_cases hfixed : fieldFixed w = 0#30 <;> simp [decode, hop, hfixed]
  · by_cases hfixed : fieldFixed w = 0#30 <;> simp [decode, hop, hfixed]
  · simp [decode, hop]

end Sys2Proof
end

section
/-! PROOFS. Requests at the host port: what a step of the machine runs and what it refuses (spec/30_encoding.md R110,
R115, R137; spec/20_memory.md R95). -/

namespace Sys2Proof.Machine

/-- A word that decodes runs its operation. -/
theorem runWord_ok {w : Word} {i : Instr} (h : decode w = .ok i) (s : State) : runWord w s = exec i s := by
  simp [runWord, h]

/-- A reserved word is refused by the condition it meets (R115). -/
theorem runWord_error {w : Word} {why : Reserved} (h : decode w = .error why) (s : State) :
    runWord w s = .refused (.reservedRequest why) := by
  simp [runWord, h]

/-- A busy block's own move is a step of its latched request. -/
theorem advance_busy {s : State} (hb : s.ctl.busy = true) : advance s = runWord s.rq.req s := by
  simp [advance, hb]

/-- An idle block takes either request move: the word is decoded with its operands on the port. -/
theorem step_request_idle {s : State} {r : Request} {rest : List HostMove} (hb : s.ctl.busy = false)
    (hh : s.host = .request r :: rest ∨ s.host = .requestNow r :: rest) :
    step s = runWord r.req ((s.setHost rest).setPort r.operands) := by
  rcases hh with hh | hh <;> simp [step, machineStep, hh, hb, present]

/-- A busy block goes on with its latched request while the host makes no move or waits for `BUSY = 0`. -/
theorem step_busy_pending {s : State} (hb : s.ctl.busy = true)
    (hh : s.host = [] ∨ ∃ r rest, s.host = .request r :: rest) : step s = runWord s.rq.req s := by
  rcases hh with hh | ⟨r, rest, hh⟩ <;> simp [step, machineStep, hh, hb, advance_busy hb]

/-- A host that waits one step uses up its move. -/
theorem step_wait {s : State} {rest : List HostMove} (hh : s.host = .wait :: rest) :
    step s = advance (s.setHost rest) := by
  simp [step, machineStep, hh]

/-- Every meaning refuses to run while the latched word is another request's (R110). -/
theorem exec_of_other_request {s : State} {i : Instr} (hb : s.ctl.busy = true) (hw : s.rq.req ≠ encode i) :
    exec i s = .refused .requestWhileBusy := by
  simp [exec_eq_serve, serve, hb, hw]

/-- An idle block refuses operands that are not well formed (R95). -/
theorem exec_of_not_wellFormed {s : State} {i : Instr} (hb : s.ctl.busy = false)
    (hw : i.wellFormed s.port = false) : exec i s = .refused .bufferWrap := by
  simp [exec_eq_serve, serve, hb, hw]

/-- A data request is not well formed when its buffer range passes the end of the address space (R82). -/
theorem wellFormed_eq_false {i : Instr} {o : Operands} (hd : i.hasData = true)
    (hwrap : o.buf.toNat + o.blocks.toNat * o.blksize.toNat > 2 ^ 32) : i.wellFormed o = false := by
  simpa [Instr.wellFormed, Operands.bufferFits, hd] using hwrap

/-- Settles O2: the reserved words by `OP`, then the refusals of the port and of a data request's meaning. -/
theorem reservedRequestsAreRefused : Obligations.ReservedRequestsAreRefused := by
  refine ⟨fun _ => decode_error_iff, ?_, ?_⟩
  · intro s r rest why hb hh hd
    rw [step_request_idle hb hh, runWord_error hd]
  · intro s i hb hd hwrap
    exact exec_of_not_wellFormed hb (wellFormed_eq_false hd hwrap)

/-- Settles O7: the port hands a decoded word to its meaning, presented or latched. -/
theorem stepRunsDecodedRequest : Obligations.StepRunsDecodedRequest := by
  refine fun s i => ⟨fun r rest hb hh hd => ?_, fun hb hd => ⟨fun hh => ?_, fun r rest hh => ?_, fun rest hh => ?_⟩⟩
  · rw [step_request_idle hb hh, runWord_ok hd]
  · rw [step_busy_pending hb (.inl hh), runWord_ok hd]
  · rw [step_busy_pending hb (.inr ⟨r, rest, hh⟩), runWord_ok hd]
  · rw [step_wait hh, advance_busy (s := s.setHost rest) hb]
    exact runWord_ok hd _

/-- Settles O8: the port refuses by `BUSY`, a meaning by the latched word, and an idle block with no move waits. -/
theorem busyBlockRefusesRequests : Obligations.BusyBlockRefusesRequests := by
  refine ⟨?_, fun s i => exec_of_other_request, ?_⟩
  · intro s r rest hb hh
    simp [step, machineStep, hh, hb]
  · intro s hb hh
    simp [step, machineStep, hh, advance, hb]

end Sys2Proof.Machine
end

section
/-! PROOFS. ISSUE: its run from entry to the call of START_CLOCK (spec/42_command_issuer.md R190 to R192,
spec/30_encoding.md R127, R132, R135). -/

namespace Sys2Proof.Machine

/-- A serving block that stays busy goes on serving after the step at SEQ. -/
theorem run_serving_to {k : Nat} {s t : State} (h : Serving s) (ht : procStep s = t) (hb : t.ctl.busy = true) :
    run (k + 1) s = run k t ∧ Serving t := by
  subst ht
  exact ⟨run_serving h, hb, (procStep_keeps s).2.2.trans h.quiet, procStep_seqInv h.busy h.inv⟩

/-- A step of ISSUE before its return. -/
theorem run_issueStep {k : Nat} {s : State} {l : IssueLabel} (h : Serving s) (hl : s.ctl.seq = .issue l)
    (hne : l ≠ .i7) : run (k + 1) s = run k (issueStep s l) ∧ Serving (issueStep s l) := by
  refine run_serving_to h (by simp [procStep, hl]) ?_
  cases l with
  | i7 => exact absurd rfl hne
  | i0 | i1 | i2 | i3 | i4 | i5 | i6 => exact h.busy

/-- The state in which ISSUE, entered in `s`, has called START_CLOCK. -/
def issueToStartClock (s : State) : State := [.i0, .i1, .i2, .i3, .i4, .i5, .i6].foldl issueStep s

/-- ISSUE calls START_CLOCK with its seventh step. -/
theorem run_issue {s : State} (h : Serving s) (hl : s.ctl.seq = .issue .i0) :
    run 7 s = .next (issueToStartClock s) := by
  obtain ⟨run0, h1⟩ := run_issueStep (k := 6) h hl nofun
  obtain ⟨run1, h2⟩ := run_issueStep (k := 5) h1 rfl nofun
  obtain ⟨run2, h3⟩ := run_issueStep (k := 4) h2 rfl nofun
  obtain ⟨run3, h4⟩ := run_issueStep (k := 3) h3 rfl nofun
  obtain ⟨run4, h5⟩ := run_issueStep (k := 2) h4 rfl nofun
  obtain ⟨run5, h6⟩ := run_issueStep (k := 1) h5 rfl nofun
  obtain ⟨run6, _⟩ := run_issueStep (k := 0) h6 rfl nofun
  rw [run0, run1, run2, run3, run4, run5, run6]
  rfl

/-- The latched word's response type, by its code (R113). -/
theorem rtype_eq {s : State} {rt : RType} (h : fieldRType s.rq.req = rt.code) : s.rtype = rt := by
  simp [State.rtype, h]

/-- A flag that is set on a condition. -/
theorem orWhen_eq (b : Bool) (w f : Word) : orWhen b w f = w ||| if b then f else 0 := by
  cases b <;> simp [orWhen]

/-- The position of CMDAT's BUSY (R126). -/
theorem flagBusy_eq : flagBusy = 0x20 := by decide

/-- The flags ISSUE writes to CMDAT: those its caller left, the response format and the busy flag (R190 to R192). -/
theorem issueToStartClock_flags (s : State) :
    (issueToStartClock s).flags =
      s.flags ||| (rspFmt s.rtype).setWidth 32 ||| (if s.busyf then 0x20 else 0) := by
  rw [← flagBusy_eq, ← orWhen_eq]
  rfl

/-- Settles O14: the format by the response type's code, then what ISSUE's seven steps leave, field by field. -/
theorem issueWritesCommandRegisters : Obligations.IssueWritesCommandRegisters := by
  intro s h hl
  constructor
  · have format {rt : RType} (hrt : fieldRType s.rq.req = rt.code) : rspFmt s.rtype = rspFmt rt := by
      rw [rtype_eq hrt]
    exact ⟨format (rt := .none), format (rt := .short), format (rt := .shortBusy), format (rt := .long),
      format (rt := .r3), rfl, rfl, rfl, rfl, rfl⟩
  · refine ⟨issueToStartClock s, run_issue h hl, ?_, issueToStartClock_flags s, rfl, rfl, rfl, rfl, rfl, rfl⟩
    rw [← h.busy]
    rfl

end Sys2Proof.Machine
end

section
/-! PROOFS. `RESULT` and `SITE`: only the end of an operation writes them (spec/30_encoding.md R117,
spec/60_exceptions.md R380, R381, R387). -/

namespace Sys2Proof.Machine

/-- What a step does to `RESULT` and `SITE`: it keeps both, or ends the operation with Ok or with an error. -/
inductive RecordMove (s t : State) : Prop where
  | keep (result : t.done.result = s.done.result := by rfl) (site : t.done.site = s.done.site := by rfl)
  | ok (result : t.done.result = .ok) (site : t.done.site = none)
  | error (e : Err) (result : t.done.result = e.result) (site : t.done.site = e.site)

namespace RecordMove

variable {s t u : State}

/-- A test writes nothing itself. -/
theorem branch {c : Prop} [Decidable c] (ht : RecordMove s t) (hu : RecordMove s u) :
    RecordMove s (if c then t else u) := by
  split
  · exact ht
  · exact hu

/-- A return records Ok or nothing; what it returns from may have written the rest of the record. -/
theorem returns (result : t.done.result = s.done.result := by rfl) (site : t.done.site = s.done.site := by rfl) :
    RecordMove s (Machine.ret t) := by
  rcases ret_cases t with ⟨_, h⟩ | ⟨_, _, _, h⟩ <;> rw [h]
  · exact .ok rfl rfl
  · exact .keep result site

/-- A raise records its error or nothing. -/
theorem raises (e : Err) (result : t.done.result = s.done.result := by rfl)
    (site : t.done.site = s.done.site := by rfl) : RecordMove s (Machine.raise e t) := by
  rcases raise_cases e t with ⟨_, h⟩ | ⟨_, _, _, h⟩ <;> rw [h]
  · exact .error e rfl rfl
  · exact .keep result site

end RecordMove

open RecordMove

theorem executeStep_recordMove (s : State) (l : ExecuteLabel) : RecordMove s (executeStep s l) := by
  cases l with
  | e0 | e1 | e2Blklen | e2Resto | e3 | e4 | e5 | e6 => exact keep
  | e2 => exact branch keep keep
  | e7 => exact branch (branch keep keep) keep
  | e8 => exact returns

theorem stopClockStep_recordMove (s : State) (l : StopClockLabel) : RecordMove s (stopClockStep s l) := by
  cases l with
  | s0 | s2 | s3 => exact keep
  | s1 => exact branch keep returns
  | s4 => exact returns

theorem startClockStep_recordMove (s : State) (l : StartClockLabel) : RecordMove s (startClockStep s l) := by
  cases l with
  | t0 | t1 => exact keep
  | t2 => exact returns

theorem awaitStep_recordMove (s : State) (l : AwaitLabel) : RecordMove s (awaitStep s l) := by
  cases l with
  | a0 | a1 | a4 => exact keep
  | a2 => exact branch returns keep
  | a3 => exact branch (raises _) keep

theorem issueStep_recordMove (s : State) (l : IssueLabel) : RecordMove s (issueStep s l) := by
  cases l with
  | i0 | i1 | i2 | i3 | i4 | i5 | i6 => exact keep
  | i7 => exact returns

theorem decodeStep_recordMove (s : State) (l : DecodeLabel) : RecordMove s (decodeStep s l) := by
  cases l with
  | dc0 | dc2 | dc3 | dc4 | dc5 | dc6 | dc7 => exact keep
  | dc1 => exact branch (raises _) keep
  | dc8 | dc9 => exact branch keep keep
  | dc10 => exact branch returns keep
  | dc11 => exact raises _
  | dc12 => exact returns

theorem readPumpStep_recordMove (s : State) (l : ReadPumpLabel) : RecordMove s (readPumpStep s l) := by
  cases l with
  | p0 | p2 | p4Store | p5 | p7 | p8 => exact keep
  | p1 | p3 | p4 => exact branch keep keep
  | p6 => exact branch (raises _) keep
  | p9 => exact returns

theorem writePumpStep_recordMove (s : State) (l : WritePumpLabel) : RecordMove s (writePumpStep s l) := by
  cases l with
  | w0 | w2 | w4Send | w6 | w8 | w9 | w10 => exact keep
  | w1 | w3 | w4 => exact branch keep keep
  | w5 => rcases signalPartial_cases s with ⟨_, h⟩ | ⟨_, h⟩ <;> simp only [writePumpStep, h] <;> exact keep
  | w7 => exact branch (raises _) keep
  | w11 => exact returns

theorem setRateStep_recordMove (s : State) (l : SetRateLabel) : RecordMove s (setRateStep s l) := by
  cases l with
  | sr0 | sr3 | sr4 | sr5 => exact keep
  | sr1 | sr2 => exact branch keep keep
  | sr6 => exact returns

theorem openHostStep_recordMove (s : State) (l : OpenLabel) : RecordMove s (openHostStep s l) := by
  cases l with
  | o1 | o2 | o3 | o4 => exact keep
  | o0 | o5 => exact branch (raises _) keep
  | o6 => exact returns

/-- A step of a procedure makes one of the three moves of the record. -/
theorem procStep_recordMove (s : State) : RecordMove s (procStep s) := by
  unfold procStep
  split
  · exact keep
  · exact executeStep_recordMove s _
  · exact stopClockStep_recordMove s _
  · exact startClockStep_recordMove s _
  · exact awaitStep_recordMove s _
  · exact issueStep_recordMove s _
  · exact decodeStep_recordMove s _
  · exact readPumpStep_recordMove s _
  · exact writePumpStep_recordMove s _
  · exact setRateStep_recordMove s _
  · exact openHostStep_recordMove s _

/-- An error names a site exactly when it is a Timeout (R381). -/
theorem site_eq_none_iff (e : Err) : e.site = none ↔ e.result ≠ .timeout := by
  cases e <;> simp [Err.site, Err.result]

theorem siteInv_iff {s : State} : siteInv s = true ↔ (s.done.site = none ↔ s.done.result ≠ .timeout) := by
  rw [siteInv, beq_iff_eq, Bool.eq_iff_iff]
  simp

/-- Each of the three moves keeps R117's law of the record. -/
theorem siteInv_of_recordMove {s t : State} (h : siteInv s = true) (hm : RecordMove s t) : siteInv t = true := by
  rw [siteInv_iff] at h ⊢
  cases hm with
  | keep hr hs => rwa [hr, hs]
  | ok hr hs => simp [hr, hs]
  | error e hr hs => rw [hr, hs, site_eq_none_iff]

/-- Settles O42: a procedure's step keeps the record or ends the operation, reset gives Ok and no site, and nothing
else writes `RESULT` or `SITE`. -/
theorem siteNamesTimeoutOnly : Obligations.SiteNamesTimeoutOnly := by
  intro s t hi h
  obtain ⟨hs, ⟨_, rfl⟩ | ⟨_, rfl, _⟩ | ⟨_, r, i, _, _, rfl⟩ | ⟨_, rfl⟩ | ⟨a, v, _, _, rfl⟩⟩ := step_cases h
  · exact hi
  · exact siteInv_of_recordMove (s := s.setHost hs) hi (procStep_recordMove _)
  · exact hi
  · exact reset_siteInv
  · exact hi

end Sys2Proof.Machine
end

section
/-! PROOFS. AWAIT: what any environment answers to its reads, and its run from entry to return or Timeout
(spec/40_bounded_poll.md R150 to R153). -/

namespace Sys2Proof.Machine

/-! ### What an environment answers -/

/-- The value a STAT read returns in an environment (R60): `readValue .stat`, as `awaitStep_a1` says. -/
def Env.nextStat (e : Env) : Word :=
  match e.stat with
  | [] => Config.freeRead e.draws
  | v :: _ => v

/-- As many STAT reads as there are values return these values, oldest first, and leave the second environment. -/
def Env.Answers : Env → List Word → Env → Prop
  | e, [], e' => e' = e
  | e, v :: vs, e' => v = e.nextStat ∧ (e.consume .stat).Answers vs e'

/-- Pending answers are what the next reads return. -/
theorem answers_of_pending {e : Env} {answers rest : List Word} (h : e.stat = answers ++ rest) :
    e.Answers answers { e with stat := rest } := by
  induction answers generalizing e with
  | nil => rw [← show e.stat = rest from h]; rfl
  | cons v vs ih =>
    refine ⟨by simp [Env.nextStat, h], ?_⟩
    rw [consume_stat h]
    exact ih rfl

/-- Of at most `n` reads in any environment either one meets the condition first, or none of `n` does. -/
theorem exists_answers (mask : Word) (pol : Polarity) (n : Nat) (e : Env) :
    ∃ answers e', e.Answers answers e' ∧
      ((∃ fails v, answers = fails ++ [v] ∧ fails.length < n ∧ (∀ x ∈ fails, met x mask pol = false) ∧
          met v mask pol = true) ∨
        (answers.length = n ∧ ∀ x ∈ answers, met x mask pol = false)) := by
  induction n generalizing e with
  | zero => exact ⟨[], e, rfl, .inr ⟨rfl, by simp⟩⟩
  | succ n ih =>
    cases hm : met e.nextStat mask pol with
    | true => exact ⟨[e.nextStat], _, ⟨rfl, rfl⟩, .inl ⟨[], _, rfl, n.succ_pos, by simp, hm⟩⟩
    | false =>
      obtain ⟨answers, e', ha, ⟨fails, v, rfl, hlen, hf, hv⟩ | ⟨hlen, hf⟩⟩ := ih (e.consume .stat)
      · exact ⟨e.nextStat :: (fails ++ [v]), e', ⟨rfl, ha⟩,
          .inl ⟨e.nextStat :: fails, v, rfl, Nat.succ_lt_succ hlen, by simpa [hm] using hf, hv⟩⟩
      · exact ⟨e.nextStat :: answers, e', ⟨rfl, ha⟩, .inr ⟨congrArg Nat.succ hlen, by simpa [hm] using hf⟩⟩

/-! ### The states of a poll -/

/-- `s` with what a poll changes before it ends: the poll registers, `SNAP`, the environment, and the trace, which has
these events more, in time order. -/
def State.polled (s : State) (p : Poll) (snap : Word) (e : Env) (events : List Event) : State :=
  (((s.setPoll p).setSnap snap).setEnv e).setTrace (events.reverse ++ s.trace)

/-- Between its start and its end a poll touches four fields alone. -/
@[simp] theorem polled_fields (s : State) (p : Poll) (v : Word) (e : Env) (ev : List Event) :
    (s.polled p v e ev).ctl = s.ctl ∧ (s.polled p v e ev).rq = s.rq ∧ (s.polled p v e ev).flags = s.flags ∧
    (s.polled p v e ev).poll = p ∧ (s.polled p v e ev).snap = v ∧ (s.polled p v e ev).pump = s.pump ∧
    (s.polled p v e ev).asm = s.asm ∧ (s.polled p v e ev).resp = s.resp ∧ (s.polled p v e ev).done = s.done ∧
    (s.polled p v e ev).rate = s.rate ∧ (s.polled p v e ev).alloc = s.alloc ∧ (s.polled p v e ev).port = s.port ∧
    (s.polled p v e ev).host = s.host ∧ (s.polled p v e ev).ctrl = s.ctrl ∧ (s.polled p v e ev).env = e ∧
    (s.polled p v e ev).mem = s.mem ∧ (s.polled p v e ev).trace = ev.reverse ++ s.trace :=
  ⟨rfl, rfl, rfl, rfl, rfl, rfl, rfl, rfl, rfl, rfl, rfl, rfl, rfl, rfl, rfl, rfl, rfl⟩

/-- Two stretches of one poll are one. -/
@[simp] theorem polled_polled (s : State) (p p' : Poll) (v v' : Word) (e e' : Env) (ev ev' : List Event) :
    (s.polled p v e ev).polled p' v' e' ev' = s.polled p' v' e' (ev ++ ev') := by
  simp [State.polled, State.setPoll, State.setSnap, State.setEnv, State.setTrace]

/-- The events of a poll, split at its last read: each read before it is followed by a delay. -/
theorem pollEvents_append_singleton (fails : List Word) (v : Word) :
    pollEvents (fails ++ [v]) =
      (fails.flatMap fun x => [.read ReadReg.stat.offset x, .delay]) ++ [.read ReadReg.stat.offset v] := by
  induction fails with
  | nil => rfl
  | cons x fails ih =>
    rw [List.flatMap_cons, List.append_assoc, ← ih]
    cases fails <;> rfl

/-! ### Ends -/

/-- Going to the label a block is at changes nothing. -/
theorem goto_seq {s : State} {l : Label} (h : s.ctl.seq = l) : goto l s = s := by
  subst h
  rfl

/-- A return does not depend on the label it leaves. -/
theorem ret_goto (l : Label) (s : State) : ret (goto l s) = ret s := by
  unfold ret
  rw [show (goto l s).ctl.stk = s.ctl.stk from rfl]
  cases s.ctl.stk <;> rfl

/-- A raise does not depend on the label it leaves. -/
theorem raise_goto (e : Err) (l : Label) (s : State) : raise e (goto l s) = raise e s := by
  unfold raise
  rw [show (goto l s).ctl.stk = s.ctl.stk from rfl]
  cases catcher s.ctl.stk <;> rfl

/-- A return to a caller resumes it. -/
theorem ret_to_caller {s : State} {back : Label} {stk : List Label} (hb : s.ctl.busy = true)
    (h : s.ctl.stk = back :: stk) : ret s = s.setCtl { seq := back, stk := stk, busy := true } := by
  simp only [ret, h, hb]

/-- A raise completes the operation with the error when no caller discards it, and resumes the caller that does. -/
theorem raise_ends (e : Err) {s : State} (hb : s.ctl.busy = true) :
    (catcher s.ctl.stk = none →
      (raise e s).ctl = { seq := .idle, stk := [], busy := false } ∧
      (raise e s).done = { s.done with result := e.result, site := e.site }) ∧
    (∀ back stk, catcher s.ctl.stk = some (back, stk) →
      (raise e s).ctl = { seq := back, stk := stk, busy := true } ∧ (raise e s).done = s.done) := by
  constructor
  · intro hc
    simp [raise, hc]
  · intro back stk hc
    simp [raise, hc, hb]

/-! ### The steps of AWAIT -/

section
variable {s : State}

/-- A1 reads STAT once and counts the read. -/
theorem awaitStep_a1 (s : State) :
    awaitStep s .a1 = goto (.await .a2) (s.polled { s.poll with pcnt := s.poll.pcnt + 1 } s.env.nextStat
      (s.env.consume .stat) [.read ReadReg.stat.offset s.env.nextStat]) := rfl

theorem awaitStep_a2_of_met (h : met s.snap s.poll.pmask s.poll.ppol = true) : awaitStep s .a2 = ret s := if_pos h

theorem awaitStep_a2_of_not_met (h : met s.snap s.poll.pmask s.poll.ppol = false) :
    awaitStep s .a2 = goto (.await .a3) s := by
  simp [awaitStep, h]

theorem awaitStep_a3_of_last (h : s.poll.pcnt.toNat = Config.pollMax) :
    awaitStep s .a3 = raise (.timeout s.poll.psite) s := if_pos h

theorem awaitStep_a3_of_ne (h : s.poll.pcnt.toNat ≠ Config.pollMax) : awaitStep s .a3 = goto (.await .a4) s :=
  if_neg h

/-- A serving block at a label of AWAIT performs AWAIT's step there. -/
theorem run_awaitStep {k : Nat} {t : State} {a : AwaitLabel} (h : Serving s) (hl : s.ctl.seq = .await a)
    (ht : awaitStep s a = t) : run (k + 1) s = run k t := by
  rw [run_serving h, procStep, hl, ← ht]

/-- The same where the step leaves the block busy, which then goes on serving. -/
theorem run_awaitStep_serving {k : Nat} {t : State} {a : AwaitLabel} (h : Serving s) (hl : s.ctl.seq = .await a)
    (ht : awaitStep s a = t) (hb : t.ctl.busy = true) : run (k + 1) s = run k t ∧ Serving t :=
  run_serving_to h (by rw [procStep, hl, ← ht]) hb

end

/-! ### Rounds of a poll -/

/-- `s` after a read that fails the condition and the delay that follows it. -/
def State.nextRound (s : State) : State :=
  s.polled { s.poll with pcnt := s.poll.pcnt + 1 } s.env.nextStat (s.env.consume .stat)
    [.read ReadReg.stat.offset s.env.nextStat, .delay]

/-- A serving block serves on in the middle of a poll. -/
theorem serving_polled {s : State} (h : Serving s) (p : Poll) (v : Word) (e : Env) (events : List Event) :
    Serving (s.polled p v e events) :=
  serving_congr h rfl rfl h.quiet

/-- A read that fails the condition, below `POLL_MAX`, leads after a delay to the next read. -/
theorem run_failing_round {s : State} (h : Serving s) (hl : s.ctl.seq = .await .a1)
    (hf : met s.env.nextStat s.poll.pmask s.poll.ppol = false) (hc : s.poll.pcnt.toNat + 1 < Config.pollMax) :
    run 4 s = .next s.nextRound := by
  have hne : (s.poll.pcnt + 1).toNat ≠ Config.pollMax := by
    rw [pcnt_succ (Nat.lt_of_succ_lt hc)]
    exact Nat.ne_of_lt hc
  obtain ⟨run1, h1⟩ := run_awaitStep_serving (k := 3) h hl (awaitStep_a1 s) h.busy
  obtain ⟨run2, h2⟩ := run_awaitStep_serving (k := 2) h1 rfl (awaitStep_a2_of_not_met hf) h.busy
  obtain ⟨run3, h3⟩ := run_awaitStep_serving (k := 1) h2 rfl (awaitStep_a3_of_ne hne) h.busy
  rw [run1, run2, run3, run_awaitStep h3 rfl rfl]
  exact congrArg Host.Outcome.next (goto_seq (s := s.nextRound) hl)

/-- Answers that fail the condition, fewer than `POLL_MAX` allows, lead through as many rounds to the next read. -/
theorem run_failing_rounds {s : State} {fails rest : List Word} {e' : Env} (h : Serving s)
    (hl : s.ctl.seq = .await .a1) (ha : s.env.Answers (fails ++ rest) e')
    (hf : ∀ x ∈ fails, met x s.poll.pmask s.poll.ppol = false)
    (hc : s.poll.pcnt.toNat + fails.length < Config.pollMax) :
    ∃ k c v e, c.toNat = s.poll.pcnt.toNat + fails.length ∧ e.Answers rest e' ∧
      run k s = .next (s.polled { s.poll with pcnt := c } v e
        (fails.flatMap fun x => [.read ReadReg.stat.offset x, .delay])) := by
  induction fails generalizing s with
  | nil => exact ⟨0, s.poll.pcnt, s.snap, s.env, rfl, ha, rfl⟩
  | cons x fails ih =>
    obtain ⟨rfl, ha⟩ := ha
    obtain ⟨hx, hf⟩ := List.forall_mem_cons.mp hf
    rw [List.length_cons] at hc
    have hcount : s.nextRound.poll.pcnt.toNat = s.poll.pcnt.toNat + 1 := pcnt_succ (by omega)
    obtain ⟨k, c, v, e, hk, he, hrun⟩ := ih (s := s.nextRound) (serving_polled h _ _ _ _) hl ha hf (by omega)
    refine ⟨4 + k, c, v, e, by rw [hk, hcount, List.length_cons]; omega, he, ?_⟩
    rw [run_add (run_failing_round h hl hx (by omega)), hrun, State.nextRound, polled_polled]
    rfl

section
variable {s : State} {mask : Word} {pol : Polarity} {site : Site} {back : Label} {stk : List Label}
  {answers fails : List Word} {v : Word} {e : Env}

/-- An AWAIT whose answers fail the condition before the last one reaches its test of the last one. -/
theorem run_await_to_last (h : Serving s) (hl : s.ctl.seq = .await (.a0 mask pol site))
    (ha : s.env.Answers (fails ++ [v]) e) (hf : ∀ x ∈ fails, met x mask pol = false)
    (hc : fails.length < Config.pollMax) :
    ∃ k c t, c.toNat = fails.length + 1 ∧ run k s = .next t ∧ Serving t ∧
      t = goto (.await .a2) (s.polled { pcnt := c, pmask := mask, ppol := pol, psite := site } v e
        (pollEvents (fails ++ [v]))) := by
  obtain ⟨run0, h0⟩ := run_awaitStep_serving (k := 0) h hl rfl h.busy
  obtain ⟨k, c, u, e', hk, ⟨rfl, rfl⟩, hrun⟩ := run_failing_rounds h0 rfl ha hf (by simpa [awaitStep] using hc)
  have hk : c.toNat = fails.length := by simpa [awaitStep] using hk
  obtain ⟨run1, h1⟩ := run_awaitStep_serving (k := 0) (serving_polled h0 _ _ _ _) rfl (awaitStep_a1 _) h.busy
  refine ⟨0 + 1 + (k + 1), c + 1, _, by rw [pcnt_succ (hk ▸ hc), hk], ?_, h1, ?_⟩
  · rw [run_add run0, run_add hrun, run1, run_zero]
  · rw [polled_polled, pollEvents_append_singleton]
    rfl

/-- An AWAIT whose last answer meets the condition resumes its caller, and has done nothing but poll. -/
theorem run_await_ok (h : Serving s) (hl : s.ctl.seq = .await (.a0 mask pol site)) (hs : s.ctl.stk = back :: stk)
    (ha : s.env.Answers answers e) (hok : PollOk mask pol answers) :
    ∃ k p v, run k s =
      .next ((s.polled p v e (pollEvents answers)).setCtl { seq := back, stk := stk, busy := true }) := by
  obtain ⟨fails, v, rfl, hc, hf, hv⟩ := hok
  obtain ⟨k, c, t, _, hrun, ht, rfl⟩ := run_await_to_last h hl ha hf hc
  refine ⟨k + 1, { pcnt := c, pmask := mask, ppol := pol, psite := site }, v, ?_⟩
  rw [run_add hrun, run_awaitStep ht rfl (awaitStep_a2_of_met hv), ret_goto]
  exact congrArg Host.Outcome.next (ret_to_caller h.busy hs)

/-- An AWAIT whose `POLL_MAX` answers fail the condition raises Timeout with its site, and has done nothing but poll. -/
theorem run_await_fails (h : Serving s) (hl : s.ctl.seq = .await (.a0 mask pol site))
    (ha : s.env.Answers answers e) (hfails : PollFails mask pol answers) :
    ∃ k p v, run k s = .next (raise (.timeout site) (s.polled p v e (pollEvents answers))) := by
  obtain ⟨hlen, hf⟩ := hfails
  obtain rfl | ⟨fails, v, rfl⟩ := answers.eq_nil_or_concat
  · cases hlen
  rw [List.concat_eq_append] at ha hlen hf ⊢
  rw [List.length_append, List.length_singleton] at hlen
  obtain ⟨hf, hv⟩ := List.forall_mem_append.mp hf
  obtain ⟨k, c, t, hcount, hrun, ht, rfl⟩ := run_await_to_last h hl ha hf (hlen ▸ Nat.lt_succ_self _)
  obtain ⟨run1, h1⟩ := run_awaitStep_serving (k := 1) ht rfl
    (awaitStep_a2_of_not_met (hv v (List.mem_singleton_self v))) h.busy
  refine ⟨k + 2, { pcnt := c, pmask := mask, ppol := pol, psite := site }, v, ?_⟩
  rw [run_add hrun, run1, run_awaitStep h1 rfl (awaitStep_a3_of_last (hcount.trans hlen)), raise_goto, raise_goto]
  rfl

end

/-- Settles O11: the pending answers are what the reads return, so the run is that of a poll with these answers. -/
theorem awaitCountLaw : Obligations.AwaitCountLaw := by
  intro s mask pol site back stk answers rest h hl hs hp
  constructor
  · intro hok
    obtain ⟨k, p, v, hrun⟩ := run_await_ok h hl hs (answers_of_pending hp) hok
    exact ⟨k, _, hrun, rfl, rfl, rfl, rfl, rfl, rfl, rfl, rfl, rfl⟩
  · intro hfails
    obtain ⟨k, p, v, hrun⟩ := run_await_fails h hl (answers_of_pending hp) hfails
    obtain ⟨uncaught, caught⟩ := raise_ends (.timeout site)
      (s := s.polled p v { s.env with stat := rest } (pollEvents answers)) h.busy
    exact ⟨k, _, hrun, by simp, by simp, by simp, by simp, by simp, uncaught, caught⟩

/-- Settles O12: every environment answers a poll with a last read that meets the condition or with `POLL_MAX` that fail
it, and each of the two has its run. -/
theorem everyAwaitEnds : Obligations.EveryAwaitEnds := by
  intro s mask pol site back stk h hl hs
  obtain ⟨answers, e, ha, hok | hfails⟩ := exists_answers mask pol Config.pollMax s.env
  · obtain ⟨k, p, v, hrun⟩ := run_await_ok h hl hs ha hok
    exact ⟨k, _, answers, hrun, rfl, rfl, rfl, rfl, .inl ⟨hok, rfl, rfl⟩⟩
  · obtain ⟨k, p, v, hrun⟩ := run_await_fails h hl ha hfails
    obtain ⟨uncaught, caught⟩ := raise_ends (.timeout site) (s := s.polled p v e (pollEvents answers)) h.busy
    exact ⟨k, _, answers, hrun, by simp, by simp, by simp, by simp, .inr ⟨hfails, uncaught, caught⟩⟩

end Sys2Proof.Machine
end

section
/-! PROOFS. STOP_CLOCK and START_CLOCK: their runs from entry to the return or the call of AWAIT
(spec/41_clock_sequencer.md R170 to R173). -/

namespace Sys2Proof.Machine

section
variable {s : State}

/-! ### The steps -/

/-- S1 returns when the snapshot shows the clock stopped (R171). -/
theorem stopClockStep_s1_of_stopped (h : bitSet s.snap bitClkEn = false) : stopClockStep s .s1 = ret s := by
  simp [stopClockStep, h]

/-- S1 goes on to stop the clock when the snapshot shows it running. -/
theorem stopClockStep_s1_of_running (h : bitSet s.snap bitClkEn = true) :
    stopClockStep s .s1 = goto (.stopClock .s2) s := if_pos h

/-- At a label of STOP_CLOCK a step is STOP_CLOCK's. -/
theorem procStep_stopClock {l : StopClockLabel} (hl : s.ctl.seq = .stopClock l) : procStep s = stopClockStep s l := by
  rw [procStep, hl]

/-- At a label of START_CLOCK a step is START_CLOCK's. -/
theorem procStep_startClock {l : StartClockLabel} (hl : s.ctl.seq = .startClock l) :
    procStep s = startClockStep s l := by
  rw [procStep, hl]

/-! ### The runs, in any environment -/

/-- STOP_CLOCK returns after its one read when that read finds CLK_EN clear. -/
theorem run_stopClock_of_stopped (h : Serving s) (hl : s.ctl.seq = .stopClock .s0)
    (hv : bitSet (readValue .stat s) bitClkEn = false) : run 2 s = .next (ret (readStat s)) := by
  obtain ⟨run0, h1⟩ := run_serving_to (k := 1) h (procStep_stopClock hl) h.busy
  rw [run0, run_serving h1, procStep_stopClock rfl, stopClockStep_s1_of_stopped (s := stopClockStep s .s0) hv,
    stopClockStep, ret_goto, run_zero]

/-- STOP_CLOCK writes STRPCL and calls AWAIT when its one read finds CLK_EN set. -/
theorem run_stopClock_of_running (h : Serving s) (hl : s.ctl.seq = .stopClock .s0)
    (hv : bitSet (readValue .stat s) bitClkEn = true) :
    run 4 s = .next (callAwait (bitMask bitClkEn) .clear .clkStop (.stopClock .s4)
      (regWrite .strpcl Config.strpclStop (readStat s))) := by
  obtain ⟨run0, h1⟩ := run_serving_to (k := 3) h (procStep_stopClock hl) h.busy
  obtain ⟨run1, h2⟩ := run_serving_to (k := 2) h1
    ((procStep_stopClock rfl).trans (stopClockStep_s1_of_running hv)) h.busy
  obtain ⟨run2, h3⟩ := run_serving_to (k := 1) h2 (procStep_stopClock rfl) h.busy
  rw [run0, run1, run2, run_serving h3]
  rfl

/-- START_CLOCK writes STRPCL and calls AWAIT, with no read before (R173). -/
theorem run_startClock (h : Serving s) (hl : s.ctl.seq = .startClock .t0) :
    run 2 s = .next (callAwait (bitMask bitClkEn) .set .clkStart (.startClock .t2)
      (regWrite .strpcl Config.strpclStart s)) := by
  obtain ⟨run0, h1⟩ := run_serving_to (k := 1) h (procStep_startClock hl) h.busy
  rw [run0, run_serving h1]
  rfl

/-! ### What the runs leave -/

/-- The trace and the environment after a STAT read that a pending answer met. -/
theorem readStat_of_pending {v : Word} {rest : List Word} (h : s.env.stat = v :: rest) :
    (readStat s).trace = .read 0x04 v :: s.trace ∧ (readStat s).env = { s.env with stat := rest } := by
  simp [readValue_stat h, consume_stat h, ReadReg.offset]

end

/-- Settles O13: STOP_CLOCK's two runs by the CLK_EN its read finds, and START_CLOCK's one. -/
theorem clockSequencerSteps : Obligations.ClockSequencerSteps := by
  intro s h
  refine ⟨?_, ?_, ?_⟩
  · intro back stk v rest hl hs hp hv
    obtain ⟨htrace, henv⟩ := readStat_of_pending hp
    have hstopped : bitSet (readValue .stat s) bitClkEn = false := by rwa [readValue_stat hp]
    refine ⟨_, run_stopClock_of_stopped h hl hstopped, ?_⟩
    rw [ret_to_caller (s := readStat s) h.busy hs]
    exact ⟨rfl, htrace, rfl, henv⟩
  · intro v rest hl hp hv
    obtain ⟨htrace, henv⟩ := readStat_of_pending hp
    have hrunning : bitSet (readValue .stat s) bitClkEn = true := by rwa [readValue_stat hp]
    exact ⟨_, run_stopClock_of_running h hl hrunning, by simp [h.busy, mask_clkEn], congrArg (List.cons _) htrace, rfl,
      henv⟩
  · intro hl
    exact ⟨_, run_startClock h hl, by simp [h.busy, mask_clkEn], rfl, rfl, rfl⟩

end Sys2Proof.Machine
end

section
/-! PROOFS. DECODE: its run from entry to the CRC test, and the run from the CRC test to its end
(spec/43_response_decoder.md R210 to R217). -/

namespace Sys2Proof.Machine

/-! ### The states of a reassembly -/

/-- `s` at a label of DECODE, with reassembly registers `asm`, response words `resp`, the RES answers `res` still pending
and `events` more in its trace. -/
def State.decoding (s : State) (l : DecodeLabel) (asm : Reassembly) (resp : Response) (res : List Word)
    (events : List Event) : State :=
  goto (.decode l) ((((s.setAsm asm).setResp resp).setEnv { s.env with res := res }).setTrace (events ++ s.trace))

/-- What the RES reads and the assembly of the words leave alone. -/
@[simp] theorem decoding_fields (s : State) (l : DecodeLabel) (asm : Reassembly) (resp : Response) (res : List Word)
    (events : List Event) :
    (s.decoding l asm resp res events).ctl = { s.ctl with seq := .decode l } ∧
    (s.decoding l asm resp res events).resp = resp ∧ (s.decoding l asm resp res events).snap = s.snap ∧
    (s.decoding l asm resp res events).done = s.done ∧ (s.decoding l asm resp res events).ctrl = s.ctrl ∧
    (s.decoding l asm resp res events).env = { s.env with res := res } ∧
    (s.decoding l asm resp res events).mem = s.mem ∧
    (s.decoding l asm resp res events).trace = events ++ s.trace :=
  ⟨rfl, rfl, rfl, rfl, rfl, rfl, rfl, rfl⟩

/-- A block that serves at a label of DECODE serves at each of them, whatever DECODE has read. -/
theorem serving_decoding {s : State} {l₀ : DecodeLabel} (h : Serving s) (hl : s.ctl.seq = .decode l₀) (l : DecodeLabel)
    (asm : Reassembly) (resp : Response) (res : List Word) (events : List Event) :
    Serving (s.decoding l asm resp res events) :=
  have same : s.ctl.seq.SameProcedure (.decode l) := hl ▸ .decode l₀ l
  ⟨h.busy, h.quiet, move_seqInv h.busy h.inv rfl rfl (nested_of_sameProcedure same)
    fun _ _ => runs_of_sameProcedure same rfl⟩

/-- At a label of DECODE a step is DECODE's. -/
theorem procStep_decode {s : State} {l : DecodeLabel} (hl : s.ctl.seq = .decode l) : procStep s = decodeStep s l := by
  rw [procStep, hl]

section
variable {s t : State} {l l₀ : DecodeLabel} {asm : Reassembly} {resp : Response} {res : List Word}
  {events : List Event}

/-- A serving block performs DECODE's step at a label of DECODE. -/
theorem run_decoding (k : Nat) (h : Serving s) (hl : s.ctl.seq = .decode l₀)
    (ht : decodeStep (s.decoding l asm resp res events) l = t) :
    run (k + 1) (s.decoding l asm resp res events) = run k t := by
  rw [run_serving (serving_decoding h hl ..), procStep_decode rfl, ht]

/-- DC1 goes on to the RES reads when the snapshot shows no response timeout (R214). -/
theorem decodeStep_dc1_of_answered (h : bitSet s.snap bitTimeOutResponse = false) :
    decodeStep s .dc1 = goto (.decode .dc2) s := by
  simp [decodeStep, h]

/-! ### The run to the CRC test -/

/-- DECODE reads STAT once and goes on to the RES reads when that read shows no response timeout (R214). -/
theorem run_decode_status (k : Nat) (h : Serving s) (hl : s.ctl.seq = .decode .dc0)
    (hv : bitSet (readValue .stat s) bitTimeOutResponse = false) :
    run (k + 2) s = run k (goto (.decode .dc2) (readStat s)) := by
  obtain ⟨run0, h1⟩ := run_serving_to (k := k + 1) h (procStep_decode hl) h.busy
  rw [run0, run_serving h1, procStep_decode rfl, decodeStep_dc1_of_answered (s := decodeStep s .dc0) hv]
  rfl

/-- The first RES read fills RA, and the word index starts at 0. -/
theorem run_first_halfword (k : Nat) (h : Serving s) (hl : s.ctl.seq = .decode l₀) (v : Word) :
    run (k + 2) (s.decoding .dc2 asm resp (v :: res) events) =
      run k (s.decoding .dc4 { asm with ra := lowHalf v, ri := 0 } resp res (.read 0x3C v :: events)) :=
  calc run (k + 2) (s.decoding .dc2 asm resp (v :: res) events)
    _ = run (k + 1) (s.decoding .dc3 { asm with ra := lowHalf v } resp res (.read 0x3C v :: events)) :=
      run_decoding (k + 1) h hl rfl
    _ = _ := run_decoding k h hl rfl

/-- Two RES reads complete the response word that RA begins, and the second one begins the next word (R212). -/
theorem run_response_word (k : Nat) (h : Serving s) (hl : s.ctl.seq = .decode l₀) (v w : Word) :
    run (k + 4) (s.decoding .dc4 asm resp (v :: w :: res) events) =
      run k (s.decoding .dc8 { asm with ra := lowHalf w, rb := lowHalf v, rc := lowHalf w }
        (resp.put asm.ri (responseWord asm.ra (lowHalf v) (lowHalf w))) res
        (.read 0x3C w :: .read 0x3C v :: events)) :=
  calc run (k + 4) (s.decoding .dc4 asm resp (v :: w :: res) events)
    _ = run (k + 3) (s.decoding .dc5 { asm with rb := lowHalf v } resp (w :: res) (.read 0x3C v :: events)) :=
      run_decoding (k + 3) h hl rfl
    _ = run (k + 2) (s.decoding .dc6 { asm with rb := lowHalf v, rc := lowHalf w } resp res
          (.read 0x3C w :: .read 0x3C v :: events)) := run_decoding (k + 2) h hl rfl
    _ = run (k + 1) (s.decoding .dc7 { asm with rb := lowHalf v, rc := lowHalf w }
          (resp.put asm.ri (responseWord asm.ra (lowHalf v) (lowHalf w))) res
          (.read 0x3C w :: .read 0x3C v :: events)) := run_decoding (k + 1) h hl rfl
    _ = _ := run_decoding k h hl rfl

/-- After a word that is not the last DC8 goes on to the next. -/
theorem run_next_word (k : Nat) (h : Serving s) (hl : s.ctl.seq = .decode l₀) (hi : asm.ri < 3) :
    run (k + 1) (s.decoding .dc8 asm resp res events) =
      run k (s.decoding .dc4 { asm with ri := asm.ri + 1 } resp res events) :=
  run_decoding k h hl (if_pos hi)

/-- After the last word DC8 goes on to the CRC test. -/
theorem run_last_word (k : Nat) (h : Serving s) (hl : s.ctl.seq = .decode l₀) (hi : ¬ asm.ri < 3) :
    run (k + 1) (s.decoding .dc8 asm resp res events) = run k (s.decoding .dc9 asm resp res events) :=
  run_decoding k h hl (if_neg hi)

end

/-- The four response words of nine RES reads (R212). -/
def reassembled (h0 h1 h2 h3 h4 h5 h6 h7 h8 : Word) : Response where
  w0 := responseWord (lowHalf h0) (lowHalf h1) (lowHalf h2)
  w1 := responseWord (lowHalf h2) (lowHalf h3) (lowHalf h4)
  w2 := responseWord (lowHalf h4) (lowHalf h5) (lowHalf h6)
  w3 := responseWord (lowHalf h6) (lowHalf h7) (lowHalf h8)

/-- From the first RES read to the CRC test: nine reads, four words (R212, R214). -/
theorem run_reassembly {s : State} {l₀ : DecodeLabel} (k : Nat) (h : Serving s) (hl : s.ctl.seq = .decode l₀)
    (asm : Reassembly) (resp : Response) (res : List Word) (h0 h1 h2 h3 h4 h5 h6 h7 h8 : Word) :
    run (k + 22) (s.decoding .dc2 asm resp ([h0, h1, h2, h3, h4, h5, h6, h7, h8] ++ res) []) =
      run k (s.decoding .dc9 { ra := lowHalf h8, rb := lowHalf h7, rc := lowHalf h8, ri := 3 }
        (reassembled h0 h1 h2 h3 h4 h5 h6 h7 h8) res
        ([h0, h1, h2, h3, h4, h5, h6, h7, h8].map (Event.read 0x3C)).reverse) := by
  simp only [List.cons_append, List.nil_append]
  rw [run_first_halfword (k + 20) h hl,
    run_response_word (k + 16) h hl, run_next_word (k + 15) h hl (by simp),
    run_response_word (k + 11) h hl, run_next_word (k + 10) h hl (by simp),
    run_response_word (k + 6) h hl, run_next_word (k + 5) h hl (by simp),
    run_response_word (k + 1) h hl, run_last_word k h hl (by simp)]
  rfl

/-- The bytes of a response word, in the bus values that were read: the rest of each value is dropped (R212). -/
theorem responseWord_lowHalf (prev mid high : Word) :
    responseWord (lowHalf prev) (lowHalf mid) (lowHalf high) =
      prev.extractLsb' 0 8 ++ mid.extractLsb' 0 16 ++ high.extractLsb' 8 8 := by
  simp [responseWord, lowHalf, BitVec.extractLsb'_extractLsb'_of_le]

/-- Settles O15: one STAT read, the run of the nine RES reads, and the bytes the four words hold. -/
theorem responseReassembly : Obligations.ResponseReassembly := by
  intro s v h0 h1 h2 h3 h4 h5 h6 h7 h8 stat res h hl hstat hv hres
  have answered : bitSet (readValue .stat s) bitTimeOutResponse = false := by rwa [readValue_stat hstat]
  have pending : (readStat s).env.res = [h0, h1, h2, h3, h4, h5, h6, h7, h8] ++ res := by
    simpa [consume_stat hstat] using hres
  have entry : goto (.decode .dc2) (readStat s) =
      (readStat s).decoding .dc2 s.asm s.resp ([h0, h1, h2, h3, h4, h5, h6, h7, h8] ++ res) [] := by
    rw [← pending]; rfl
  have hs : Serving (readStat s) := serving_congr h rfl rfl h.quiet
  have hrun := run_decode_status 22 h hl answered
  rw [entry, run_reassembly 0 hs hl, run_zero] at hrun
  refine ⟨_, hrun, by simp, ?_, by simp [consume_stat hstat], ?_, by simp [readValue_stat hstat], by simp,
    by simp, by simp⟩
  · simp [reassembled, responseWord_lowHalf]
  · simp [readValue_stat hstat, ReadReg.offset]

/-! ### The run from the CRC test -/

/-- DECODE is called by EXECUTE alone, which it resumes at E7 (R280). -/
theorem stk_of_decode {s : State} {l : DecodeLabel} (h : Serving s) (hl : s.ctl.seq = .decode l) :
    s.ctl.stk = [.execute .e7] := by
  have hn := (own_of_seqInv h.busy h.inv).1
  rw [hl] at hn
  cases hs : s.ctl.stk with
  | nil => simp [hs, nested, Label.outermost] at hn
  | cons back stk =>
    rw [hs, nested, Bool.and_eq_true] at hn
    obtain ⟨returns, hn⟩ := hn
    obtain rfl : back = .execute .e7 := beq_iff_eq.mp returns
    cases stk with
    | nil => rfl
    | cons => simp [nested, Label.returnsTo] at hn

/-- A response CRC error on a checked response: RES_CRC_ERR in DECODE's status and `CRC = 1` (R215). -/
def State.crcFails (s : State) : Prop := s.snap.getLsbD 5 = true ∧ s.rq.req.getLsbD 11 = true

theorem suppresses_iff {s : State} : suppresses s = true ↔ s.rtype = .long ∧ s.resp.w0.getLsbD 31 = true := by
  simp [suppresses, bitSet]

section
variable {s : State}

theorem decodeStep_dc9_of_crcFails (h : s.crcFails) : decodeStep s .dc9 = goto (.decode .dc10) s :=
  if_pos (Bool.and_eq_true_iff.mpr h)

theorem decodeStep_dc9_of_not_crcFails (h : ¬ s.crcFails) : decodeStep s .dc9 = goto (.decode .dc12) s :=
  if_neg (mt Bool.and_eq_true_iff.mp h)

theorem decodeStep_dc10_of_suppresses (h : suppresses s = true) :
    decodeStep s .dc10 = ret (s.setDone { s.done with crcSupp := true }) := if_pos h

theorem decodeStep_dc10_of_not_suppresses (h : ¬ suppresses s = true) :
    decodeStep s .dc10 = goto (.decode .dc11) s := if_neg h

/-- DECODE returns when the response has no CRC error or is not checked (R215). -/
theorem run_crc_passes (h : Serving s) (hl : s.ctl.seq = .decode .dc9) (passes : ¬ s.crcFails) :
    run 2 s = .next (ret s) := by
  obtain ⟨run0, h1⟩ := run_serving_to (k := 1) h
    ((procStep_decode hl).trans (decodeStep_dc9_of_not_crcFails passes)) h.busy
  rw [run0, run_serving h1, procStep_decode rfl, decodeStep, ret_goto, run_zero]

/-- DECODE returns with `CRC_SUPP` set when the CRC error is suppressed (R216). -/
theorem run_crc_suppressed (h : Serving s) (hl : s.ctl.seq = .decode .dc9) (fails : s.crcFails)
    (hs : suppresses s = true) : run 2 s = .next (ret (s.setDone { s.done with crcSupp := true })) := by
  obtain ⟨run0, h1⟩ := run_serving_to (k := 1) h
    ((procStep_decode hl).trans (decodeStep_dc9_of_crcFails fails)) h.busy
  rw [run0, run_serving h1, procStep_decode rfl, decodeStep_dc10_of_suppresses (s := goto (.decode .dc10) s) hs, run_zero]
  exact congrArg _ (ret_goto _ (s.setDone { s.done with crcSupp := true }))

/-- DECODE raises ResponseCrcMismatch when the CRC error is not suppressed (R215). -/
theorem run_crc_reported (h : Serving s) (hl : s.ctl.seq = .decode .dc9) (fails : s.crcFails)
    (hs : ¬ suppresses s = true) : run 3 s = .next (raise .responseCrcMismatch s) := by
  obtain ⟨run0, h1⟩ := run_serving_to (k := 2) h
    ((procStep_decode hl).trans (decodeStep_dc9_of_crcFails fails)) h.busy
  obtain ⟨run1, h2⟩ := run_serving_to (k := 1) h1
    ((procStep_decode rfl).trans (decodeStep_dc10_of_not_suppresses hs)) h.busy
  rw [run0, run1, run_serving h2, procStep_decode rfl, decodeStep, raise_goto, raise_goto, run_zero]

end

/-- Settles O17: the CRC test, then R216's condition, decide between the two returns to EXECUTE and the error that ends
it. -/
theorem crcRuleWithSuppression : Obligations.CrcRuleWithSuppression := by
  intro s h hl
  have hstk := stk_of_decode h hl
  refine ⟨?_, ?_, ?_⟩
  · rintro ⟨fails, reported⟩
    obtain ⟨ctl, done⟩ := (raise_ends .responseCrcMismatch h.busy).1 (by rw [hstk]; rfl)
    exact ⟨_, run_crc_reported h hl fails (mt suppresses_iff.mp reported), ctl, done, by simp, by simp⟩
  · rintro ⟨fails, suppressed⟩
    refine ⟨_, run_crc_suppressed h hl fails (suppresses_iff.mpr suppressed), ?_⟩
    rw [ret_to_caller (s := s.setDone { s.done with crcSupp := true }) h.busy hstk]
    exact ⟨rfl, rfl, rfl, rfl⟩
  · intro passes
    refine ⟨_, run_crc_passes h hl passes, ?_⟩
    rw [ret_to_caller h.busy hstk]
    exact ⟨rfl, rfl, rfl, rfl⟩

end Sys2Proof.Machine
end

section
/-! PROOFS. `CRC_SUPP`: what the step at each label does to it (spec/10_state.md R50, spec/43_response_decoder.md R216,
R217). -/

namespace Sys2Proof.Machine

@[simp] theorem ret_crcSupp (s : State) : (ret s).done.crcSupp = s.done.crcSupp := by
  rcases ret_cases s with ⟨_, h⟩ | ⟨_, _, _, h⟩ <;> rw [h] <;> rfl

@[simp] theorem raise_crcSupp (e : Err) (s : State) : (raise e s).done.crcSupp = s.done.crcSupp := by
  rcases raise_cases e s with ⟨_, h⟩ | ⟨_, _, _, h⟩ <;> rw [h] <;> rfl

/-- `CRC_SUPP` after the step at SEQ: cleared at an operation's first label, set on the suppression branch, else kept. -/
def State.crcSuppNext (s : State) : Bool :=
  match s.ctl.seq with
  | .execute .e0 | .setRate .sr0 | .openHost .o0 => false
  | .decode .dc10 => suppresses s || s.done.crcSupp
  | _ => s.done.crcSupp

/-- One label sets `CRC_SUPP` and three clear it, whatever the state. -/
theorem procStep_crcSupp (s : State) : (procStep s).done.crcSupp = s.crcSuppNext := by
  cases hl : s.ctl.seq with
  | idle => simp [procStep, State.crcSuppNext, hl]
  | execute l =>
    cases l <;> simp [procStep, State.crcSuppNext, hl, executeStep, callPump, apply_ite State.done]
  | stopClock l =>
    cases l <;>
      simp [procStep, State.crcSuppNext, hl, stopClockStep, apply_ite State.done, apply_ite Completion.crcSupp]
  | startClock l => cases l <;> simp [procStep, State.crcSuppNext, hl, startClockStep]
  | await l =>
    cases l <;> simp [procStep, State.crcSuppNext, hl, awaitStep, apply_ite State.done, apply_ite Completion.crcSupp]
  | issue l => cases l <;> simp [procStep, State.crcSuppNext, hl, issueStep]
  | decode l =>
    cases l <;> simp [procStep, State.crcSuppNext, hl, decodeStep, apply_ite State.done, apply_ite Completion.crcSupp]
  | readPump l =>
    cases l <;>
      simp [procStep, State.crcSuppNext, hl, readPumpStep, apply_ite State.done, apply_ite Completion.crcSupp]
  | writePump l =>
    cases l <;>
      simp [procStep, State.crcSuppNext, hl, writePumpStep, signalPartial, apply_ite State.done,
        apply_ite Completion.crcSupp]
  | setRate l => cases l <;> simp [procStep, State.crcSuppNext, hl, setRateStep, apply_ite State.done]
  | openHost l =>
    cases l <;>
      simp [procStep, State.crcSuppNext, hl, openHostStep, apply_ite State.done, apply_ite Completion.crcSupp]

/-- The suppression branch alone sets `CRC_SUPP` (R216). -/
theorem crcSuppNext_sets {s : State} (h0 : s.done.crcSupp = false) (h1 : s.crcSuppNext = true) :
    s.ctl.seq = .decode .dc10 ∧ suppresses s = true := by
  unfold State.crcSuppNext at h1
  split at h1
  · cases h1
  · cases h1
  · cases h1
  · exact ⟨‹_›, by simpa [h0] using h1⟩
  · exact absurd (h0.symm.trans h1) nofun

/-- An operation's first label alone clears `CRC_SUPP` (R280, R320, R350). -/
theorem crcSuppNext_clears {s : State} (h1 : s.done.crcSupp = true) (h0 : s.crcSuppNext = false) :
    s.ctl.seq = .execute .e0 ∨ s.ctl.seq = .setRate .sr0 ∨ s.ctl.seq = .openHost .o0 := by
  unfold State.crcSuppNext at h0
  split at h0
  · exact .inl ‹_›
  · exact .inr (.inl ‹_›)
  · exact .inr (.inr ‹_›)
  · simp [h1] at h0
  · exact absurd (h1.symm.trans h0) nofun

/-- Settles O50: of the steps that write `CRC_SUPP`, DC10 alone sets it, on R216's condition; acceptance and reset clear
it, and the host's other moves leave it alone. -/
theorem suppressionFlagHasOneSetter : Obligations.SuppressionFlagHasOneSetter := by
  intro s t h
  obtain ⟨hs, ⟨_, rfl⟩ | ⟨_, rfl, _⟩ | ⟨hb, r, i, _, _, rfl⟩ | ⟨hr, rfl⟩ | ⟨a, v, _, _, rfl⟩⟩ := step_cases h
  · exact ⟨fun h0 h1 => absurd (h0.symm.trans h1) nofun, fun h1 h0 => absurd (h1.symm.trans h0) nofun⟩
  · rw [procStep_crcSupp]
    refine ⟨fun h0 h1 => ?_, fun h1 h0 => ?_⟩
    · obtain ⟨hl, hsupp⟩ := crcSuppNext_sets (s := s.setHost hs) h0 h1
      exact ⟨hl, suppresses_iff.mp hsupp⟩
    · obtain hl | hl | hl := crcSuppNext_clears (s := s.setHost hs) h1 h0
      · exact .inr (.inl hl)
      · exact .inr (.inr (.inl hl))
      · exact .inr (.inr (.inr (.inl hl)))
  · exact ⟨fun _ => nofun, fun _ _ => .inl hb⟩
  · exact ⟨fun _ => nofun, fun _ _ => .inr (.inr (.inr (.inr ⟨hs, hr⟩)))⟩
  · exact ⟨fun h0 h1 => absurd (h0.symm.trans h1) nofun, fun h1 h0 => absurd (h1.symm.trans h0) nofun⟩

end Sys2Proof.Machine
end

section
/-! PROOFS. The data pumps: what their runs share (spec/44_data_pump.md R240 to R251). -/

namespace Sys2Proof.Machine

/-! ### Runs of a serving block -/

/-- A run of one step or more begins with a step. -/
theorem exists_step_of_run {k : Nat} {s t : State} (h : run (k + 1) s = .next t) :
    ∃ u, step s = .next u ∧ run k u = .next t := by
  simp only [run, Host.Core.run] at h
  split at h
  · exact ⟨_, ‹_›, h⟩
  · cases h
  · cases h

/-- A host with no move left makes none. -/
theorem step_quiet {s t : State} (hq : s.host = []) (h : step s = .next t) : t.host = [] := by
  have hadvance : advance s = .next t := by simpa [step, machineStep, hq] using h
  obtain ⟨_, rfl⟩ | ⟨_, _, _, _, rfl⟩ := advance_cases hadvance
  · exact hq
  · exact (procStep_keeps s).2.2.trans hq

/-- A run keeps a quiet host quiet and the block in order. -/
theorem run_quiet {k : Nat} {s t : State} (hq : s.host = []) (hs : seqInv s = true) (h : run k s = .next t) :
    t.host = [] ∧ seqInv t = true := by
  induction k generalizing s with
  | zero =>
    obtain rfl : s = t := Host.Outcome.next.inj h
    exact ⟨hq, hs⟩
  | succ k ih =>
    obtain ⟨u, hu, hr⟩ := exists_step_of_run h
    exact ih (step_quiet hq hu) (sequencingInvariantKept s u hs hu) hr

/-- A serving block that a run leaves busy serves on. -/
theorem serving_of_run {k : Nat} {s t : State} (h : Serving s) (hr : run k s = .next t) (hb : t.ctl.busy = true) :
    Serving t :=
  have ⟨hq, hs⟩ := run_quiet h.quiet h.inv hr
  ⟨hb, hq, hs⟩

section
variable {s : State} {back : Label} {mask : Word} {pol : Polarity} {site : Site} {answers : List Word} {e : Env}

/-- A procedure whose call of AWAIT returns goes on at the step after the call, and has done nothing but poll. -/
theorem run_called_await_ok (h : Serving s) (hc : procStep s = callAwait mask pol site back s)
    (ha : s.env.Answers answers e) (hok : PollOk mask pol answers) :
    ∃ k p v, run k s = .next (goto back (s.polled p v e (pollEvents answers))) ∧
      Serving (goto back (s.polled p v e (pollEvents answers))) := by
  obtain ⟨run0, h1⟩ := run_serving_to (k := 0) h hc h.busy
  obtain ⟨k, p, v, hrun⟩ := run_await_ok (back := back) (stk := s.ctl.stk) h1 rfl rfl ha hok
  have hrun : run (0 + 1 + k) s = .next (goto back (s.polled p v e (pollEvents answers))) := by
    rw [run_add run0, hrun, ← h.busy]
    rfl
  exact ⟨_, p, v, hrun, serving_of_run h hrun h.busy⟩

/-- A procedure whose call of AWAIT times out completes the operation with Timeout and the wait's site, where no caller
discards errors. -/
theorem run_called_await_fails (h : Serving s) (hc : procStep s = callAwait mask pol site back s)
    (hd : catcher (back :: s.ctl.stk) = none) (ha : s.env.Answers answers e) (hf : PollFails mask pol answers) :
    ∃ k p v, run k s = .next (complete .timeout (some site) (s.polled p v e (pollEvents answers))) := by
  obtain ⟨run0, h1⟩ := run_serving_to (k := 0) h hc h.busy
  obtain ⟨k, p, v, hrun⟩ := run_await_fails h1 rfl ha hf
  refine ⟨0 + 1 + k, p, v, ?_⟩
  rw [run_add run0, hrun, raise]
  simp only [polled_fields, callAwait_fields, hd]
  rfl

end

/-! ### Labels and the call stack -/

/-- At a label of READ_PUMP a step is READ_PUMP's; where it leaves the block busy, the block serves on. -/
theorem run_readPumpStep {k : Nat} {s t : State} {l : ReadPumpLabel} (h : Serving s) (hl : s.ctl.seq = .readPump l)
    (ht : readPumpStep s l = t) (hb : t.ctl.busy = true) : run (k + 1) s = run k t ∧ Serving t :=
  run_serving_to h (by rw [procStep, hl, ← ht]) hb

/-- The same for WRITE_PUMP. -/
theorem run_writePumpStep {k : Nat} {s t : State} {l : WritePumpLabel} (h : Serving s)
    (hl : s.ctl.seq = .writePump l) (ht : writePumpStep s l = t) (hb : t.ctl.busy = true) :
    run (k + 1) s = run k t ∧ Serving t :=
  run_serving_to h (by rw [procStep, hl, ← ht]) hb

/-- EXECUTE alone calls a pump, which resumes it at E8 (R280). -/
theorem stk_of_pumps {s : State} (h : Serving s) (hp : s.ctl.seq.pumps = true) : s.ctl.stk = [.execute .e8] := by
  have hn := (own_of_seqInv h.busy h.inv).1
  have houter : s.ctl.seq.outermost = false := by
    cases hl : s.ctl.seq <;> simp_all [Label.pumps, Label.outermost]
  have hback (b : Label) : s.ctl.seq.returnsTo b = true ↔ b = .execute .e8 := by
    cases hl : s.ctl.seq <;> simp_all [Label.pumps, Label.returnsTo]
  cases hs : s.ctl.stk with
  | nil => simp [hs, nested, houter] at hn
  | cons back stk =>
    rw [hs, nested, Bool.and_eq_true, hback] at hn
    obtain ⟨rfl, hn⟩ := hn
    cases stk with
    | nil => rfl
    | cons => simp [nested, Label.returnsTo] at hn

/-- A pump's return resumes EXECUTE at E8, whose return completes the operation with Ok. -/
theorem run_pump_returns {s : State} (h : Serving s) (hp : s.ctl.seq.pumps = true) (hr : procStep s = ret s) :
    run 2 s = .next (complete .ok none s) := by
  have hret : procStep s = s.setCtl { seq := .execute .e8, stk := [], busy := true } :=
    hr.trans (ret_to_caller h.busy (stk_of_pumps h hp))
  obtain ⟨run0, h1⟩ := run_serving_to (k := 1) h hret rfl
  rw [run0, run_serving h1]
  rfl

/-- An error of a pump completes the operation: EXECUTE discards none (R292). -/
theorem raise_of_pumps {s : State} (e : Err) (h : Serving s) (hp : s.ctl.seq.pumps = true) :
    raise e s = complete e.result e.site s := by
  rw [raise, stk_of_pumps h hp]
  rfl

/-! ### From the read of an iteration to what its snapshot selects (R241, R242) -/

section
variable {s : State}

/-- An iteration of READ_PUMP without RXRDY goes from its read to the error test. -/
theorem run_readPump_not_ready (h : Serving s) (hl : s.ctl.seq = .readPump .p2)
    (hready : bitSet (readValue .stat s) bitRxrdy = false) :
    run 2 s = .next (goto (.readPump .p6) (readStat s)) ∧ Serving (goto (.readPump .p6) (readStat s)) := by
  obtain ⟨run2, h2⟩ := run_readPumpStep (k := 1) h hl rfl h.busy
  obtain ⟨run3, h3⟩ := run_readPumpStep (k := 0) h2 rfl (if_neg (Bool.eq_false_iff.mp hready)) h.busy
  exact ⟨run2.trans run3, h3⟩

/-- An iteration of READ_PUMP with RXRDY goes from its read to the chunk. -/
theorem run_readPump_ready (h : Serving s) (hl : s.ctl.seq = .readPump .p2)
    (hready : bitSet (readValue .stat s) bitRxrdy = true) :
    run 2 s = .next (goto (.readPump .p4) (startChunk (readStat s))) ∧
      Serving (goto (.readPump .p4) (startChunk (readStat s))) := by
  obtain ⟨run2, h2⟩ := run_readPumpStep (k := 1) h hl rfl h.busy
  obtain ⟨run3, h3⟩ := run_readPumpStep (k := 0) h2 rfl (if_pos hready) h.busy
  exact ⟨run2.trans run3, h3⟩

/-- An iteration of WRITE_PUMP without TXRDY goes from its read to the error test. -/
theorem run_writePump_not_ready (h : Serving s) (hl : s.ctl.seq = .writePump .w2)
    (hready : bitSet (readValue .stat s) bitTxrdy = false) :
    run 2 s = .next (goto (.writePump .w7) (readStat s)) ∧ Serving (goto (.writePump .w7) (readStat s)) := by
  obtain ⟨run2, h2⟩ := run_writePumpStep (k := 1) h hl rfl h.busy
  obtain ⟨run3, h3⟩ := run_writePumpStep (k := 0) h2 rfl (if_neg (Bool.eq_false_iff.mp hready)) h.busy
  exact ⟨run2.trans run3, h3⟩

/-- An iteration of WRITE_PUMP with TXRDY goes from its read to the chunk. -/
theorem run_writePump_ready (h : Serving s) (hl : s.ctl.seq = .writePump .w2)
    (hready : bitSet (readValue .stat s) bitTxrdy = true) :
    run 2 s = .next (goto (.writePump .w4) (startChunk (readStat s))) ∧
      Serving (goto (.writePump .w4) (startChunk (readStat s))) := by
  obtain ⟨run2, h2⟩ := run_writePumpStep (k := 1) h hl rfl h.busy
  obtain ⟨run3, h3⟩ := run_writePumpStep (k := 0) h2 rfl (if_pos hready) h.busy
  exact ⟨run2.trans run3, h3⟩

end

end Sys2Proof.Machine
end

section
/-! PROOFS. The pump loop where it moves nothing, and the waits after it (spec/44_data_pump.md R246 to R248). -/

namespace Sys2Proof.Machine

/-! ### Iterations that move nothing (R248) -/

/-- The head of a pump's loop: with bytes remaining and neither the ready bit nor an error in the snapshot, an iteration
from this label does nothing but read STAT. -/
def Label.IdlesUnless (l : Label) (ready : Nat) : Prop :=
  ∀ s : State, Serving s → s.ctl.seq = l → s.pump.rem ≠ 0 → bitSet (readValue .stat s) ready = false →
    hasError (readValue .stat s) = false → run 5 s = .next (readStat s)

/-- READ_PUMP: P1, the read, and P6 and P7 back to P1. -/
theorem readPump_idles : Label.IdlesUnless (.readPump .p1) bitRxrdy := by
  intro s h hl hrem hready herr
  obtain ⟨run1, h2⟩ := run_readPumpStep (k := 0) h hl (if_neg hrem) h.busy
  obtain ⟨hread, h6⟩ := run_readPump_not_ready h2 rfl hready
  obtain ⟨run6, h7⟩ := run_readPumpStep (k := 1) h6 rfl (if_neg (Bool.eq_false_iff.mp herr)) h.busy
  obtain ⟨run7, _⟩ := run_readPumpStep (k := 0) h7 rfl rfl h.busy
  have hrun : run 5 s = .next (goto (.readPump .p1) (readStat s)) :=
    (run_add run1).trans ((run_add hread).trans (run6.trans run7))
  rwa [goto_seq (s := readStat s) hl] at hrun

/-- WRITE_PUMP: W1, the read, and W7 and W8 back to W1. -/
theorem writePump_idles : Label.IdlesUnless (.writePump .w1) bitTxrdy := by
  intro s h hl hrem hready herr
  obtain ⟨run1, h2⟩ := run_writePumpStep (k := 0) h hl (if_neg hrem) h.busy
  obtain ⟨hread, h7⟩ := run_writePump_not_ready h2 rfl hready
  obtain ⟨run7, h8⟩ := run_writePumpStep (k := 1) h7 rfl (if_neg (Bool.eq_false_iff.mp herr)) h.busy
  obtain ⟨run8, _⟩ := run_writePumpStep (k := 0) h8 rfl rfl h.busy
  have hrun : run 5 s = .next (goto (.writePump .w1) (readStat s)) :=
    (run_add run1).trans ((run_add hread).trans (run7.trans run8))
  rwa [goto_seq (s := readStat s) hl] at hrun

/-- What a STAT read that a pending answer meets leaves, as a stretch of reads. -/
theorem readStat_eq_polled {s : State} {v : Word} {rest : List Word} (h : s.env.stat = v :: rest) :
    readStat s = s.polled s.poll v { s.env with stat := rest } [.read 0x04 v] := by
  rw [← readValue_stat h, ← consume_stat h]
  rfl

/-- As many iterations as there are answers with neither the ready bit nor an error read these answers, move nothing and
are back at the head of the loop. -/
theorem run_idle_iterations {l : Label} {ready : Nat} (idles : l.IdlesUnless ready) {s : State} {vs rest : List Word}
    (h : Serving s) (hl : s.ctl.seq = l) (hrem : s.pump.rem ≠ 0) (hs : s.env.stat = vs ++ rest)
    (hready : ∀ v ∈ vs, bitSet v ready = false) (herr : ∀ v ∈ vs, hasError v = false) :
    ∃ snap, run (5 * vs.length) s =
      .next (s.polled s.poll snap { s.env with stat := rest } (vs.map (Event.read 0x04))) := by
  induction vs generalizing s with
  | nil => exact ⟨s.snap, by rw [← show s.env.stat = rest from hs]; rfl⟩
  | cons v vs ih =>
    obtain ⟨hv, hready⟩ := List.forall_mem_cons.mp hready
    obtain ⟨he, herr⟩ := List.forall_mem_cons.mp herr
    have hs : s.env.stat = v :: (vs ++ rest) := hs
    have hrun : run 5 s = .next (readStat s) :=
      idles s h hl hrem (by rwa [readValue_stat hs]) (by rwa [readValue_stat hs])
    rw [readStat_eq_polled hs] at hrun
    obtain ⟨snap, hruns⟩ := ih (serving_polled h s.poll v { s.env with stat := vs ++ rest } [.read 0x04 v]) hl hrem rfl
      hready herr
    refine ⟨snap, ?_⟩
    rw [List.length_cons, Nat.mul_succ, Nat.add_comm, run_add hrun, hruns, polled_polled]
    rfl

/-- Settles O20: one idle iteration of each pump, repeated for every answer. -/
theorem pumpLoopHasNoBound : Obligations.PumpLoopHasNoBound := by
  intro s vs rest h hrem hs herr hpump
  have herr : ∀ v ∈ vs, hasError v = false := fun v hv => by rw [hasError_eq, herr v hv]; rfl
  obtain ⟨snap, hrun⟩ : ∃ snap, run (5 * vs.length) s =
      .next (s.polled s.poll snap { s.env with stat := rest } (vs.map (Event.read 0x04))) := by
    rcases hpump with ⟨hl, hready⟩ | ⟨hl, hready⟩
    · exact run_idle_iterations readPump_idles h hl hrem hs hready herr
    · exact run_idle_iterations writePump_idles h hl hrem hs hready herr
  exact ⟨_, hrun, rfl, rfl, rfl, rfl, rfl, rfl, rfl, rfl⟩

/-! ### The waits when nothing remains (R246, R247) -/

/-- Settles O24: each wait is a call of AWAIT, whose end decides between the step after it and the completion. -/
theorem pumpFinalWaits : Obligations.PumpFinalWaits := by
  intro s h hrem
  rw [← mask_dataTranDone, ← mask_prgDone]
  constructor
  · intro hl first rest hs
    obtain ⟨run1, h8⟩ := run_readPumpStep (k := 0) h hl (if_pos hrem) h.busy
    have hstk := stk_of_pumps h8 rfl
    constructor
    · intro hok
      obtain ⟨k, p, v, hwait, h9⟩ := run_called_await_ok h8 rfl (answers_of_pending hs) hok
      have hrun := (run_add run1).trans ((run_add hwait).trans (run_pump_returns h9 rfl rfl))
      exact ⟨_, _, hrun, rfl, rfl, rfl, rfl, rfl⟩
    · intro hfails
      obtain ⟨k, p, v, hwait⟩ := run_called_await_fails h8 rfl (by rw [hstk]; rfl) (answers_of_pending hs) hfails
      exact ⟨_, _, (run_add run1).trans hwait, rfl, rfl, rfl, rfl, rfl⟩
  · intro hl first rest hs
    obtain ⟨run1, h9⟩ := run_writePumpStep (k := 0) h hl (if_pos hrem) h.busy
    have hstk := stk_of_pumps h9 rfl
    constructor
    · intro hfails
      obtain ⟨k, p, v, hwait⟩ := run_called_await_fails h9 rfl (by rw [hstk]; rfl) (answers_of_pending hs) hfails
      exact ⟨_, _, (run_add run1).trans hwait, rfl, rfl, rfl, rfl, rfl⟩
    · rintro hok second rest2 rfl
      obtain ⟨k, p, v, hwait, h10⟩ := run_called_await_ok h9 rfl (answers_of_pending hs) hok
      have hstk := stk_of_pumps h10 rfl
      constructor
      · intro hok
        obtain ⟨k2, p, v, hwait2, h11⟩ := run_called_await_ok h10 rfl (answers_of_pending rfl) hok
        have hrun := (run_add run1).trans ((run_add hwait).trans
          ((run_add hwait2).trans (run_pump_returns h11 rfl rfl)))
        exact ⟨_, _, hrun, rfl, rfl, rfl, rfl, rfl⟩
      · intro hfails
        obtain ⟨k2, p, v, hwait2⟩ := run_called_await_fails h10 rfl (by rw [hstk]; rfl) (answers_of_pending rfl) hfails
        have hrun := (run_add run1).trans ((run_add hwait).trans hwait2)
        exact ⟨_, _, hrun, rfl, rfl, rfl, rfl, rfl⟩

end Sys2Proof.Machine
end

section
/-! PROOFS. The chunks of the pumps: what a run of bytes moved does to memory, the FIFOs and the trace
(spec/44_data_pump.md R241 to R243, R249). -/

namespace Sys2Proof.Machine

/-! ### Runs of bytes -/

/-- `m` after the bytes are stored at rising addresses from `a`. -/
def Memory.store (m : Memory) (a : Word) : List Byte → Memory
  | [] => m
  | b :: bs => (m.write a.toNat b).store (a + 1) bs

/-- One address on, in a range that has bytes left and ends at or below `2^32`. -/
theorem succ_toNat {a : Word} {n : Nat} (hn : 0 < n) (h : a.toNat + (n + 1) ≤ 2 ^ 32) :
    (a + 1).toNat = a.toNat + 1 := by
  bv_omega

/-- The rest of a range that ends at or below `2^32` does so too. -/
theorem succ_range {a : Word} {n : Nat} (h : a.toNat + (n + 1) ≤ 2 ^ 32) : (a + 1).toNat + n ≤ 2 ^ 32 := by
  bv_omega

/-- A byte outside the range stored reads as before. -/
theorem read_store_outside {m : Memory} {a : Word} {bs : List Byte} (hm : m.wf = true)
    (h : a.toNat + bs.length ≤ 2 ^ 32) {b : Nat} (hb : b < a.toNat ∨ a.toNat + bs.length ≤ b) :
    (m.store a bs).read b = m.read b := by
  induction bs generalizing m a with
  | nil => rfl
  | cons x bs ih =>
    rw [List.length_cons] at h hb
    have hrest : b < (a + 1).toNat ∨ (a + 1).toNat + bs.length ≤ b := by bv_omega
    rw [Memory.store, ih (write_wf x a.isLt hm) (succ_range h) hrest, read_write _ _ _ hm, if_neg (by omega)]

/-- The bytes stored read back in order. -/
theorem read_store_inside {m : Memory} {a : Word} {bs : List Byte} (hm : m.wf = true)
    (h : a.toNat + bs.length ≤ 2 ^ 32) {k : Nat} (hk : k < bs.length) :
    (m.store a bs).read (a.toNat + k) = bs[k] := by
  induction bs generalizing m a k with
  | nil => cases hk
  | cons x bs ih =>
    rw [List.length_cons] at h hk
    have hwf := write_wf x a.isLt hm
    cases k with
    | zero =>
      have hfirst : a.toNat < (a + 1).toNat ∨ (a + 1).toNat + bs.length ≤ a.toNat := by bv_omega
      rw [Memory.store, Nat.add_zero, read_store_outside hwf (succ_range h) hfirst, read_write _ _ _ hm, if_pos rfl,
        List.getElem_cons_zero]
    | succ k =>
      have hk : k < bs.length := Nat.lt_of_succ_lt_succ hk
      rw [Memory.store, List.getElem_cons_succ, ← ih hwf (succ_range h) hk, succ_toNat (Nat.zero_lt_of_lt hk) h,
        Nat.add_right_comm, Nat.add_assoc]

/-- The bytes of a range, first one first, by the address of the first. -/
theorem bytes_step (m : Memory) {a : Word} {n : Nat} (h : a.toNat + (n + 1) ≤ 2 ^ 32) :
    m.bytes a.toNat (n + 1) = m.read a.toNat :: m.bytes (a + 1).toNat n := by
  rw [bytes_succ]
  cases n with
  | zero => rfl
  | succ n => rw [succ_toNat n.succ_pos h]

/-- A byte that is written zero-extended is appended to the TX FIFO as it is (R61, R134). -/
theorem absorb_byte (e : Env) (b : Byte) : e.absorb (b.setWidth 32) .txfifo = { e with tx := e.tx ++ [b] } := by
  simp [Env.absorb, lowByte, BitVec.extractLsb'_setWidth_of_le]

/-! ### The states of a chunk -/

/-- `s` at another label, with what a pump changes while it moves bytes: the pump registers, the environment, memory,
and the trace, which has these events more, in time order. -/
def State.pumping (s : State) (l : Label) (p : Pump) (e : Env) (m : Memory) (events : List Event) : State :=
  goto l ((((s.setPump p).setEnv e).setMem m).setTrace (events.reverse ++ s.trace))

/-- What moving bytes leaves alone. -/
@[simp] theorem pumping_fields (s : State) (l : Label) (p : Pump) (e : Env) (m : Memory) (ev : List Event) :
    (s.pumping l p e m ev).ctl = { s.ctl with seq := l } ∧ (s.pumping l p e m ev).snap = s.snap ∧
    (s.pumping l p e m ev).pump = p ∧ (s.pumping l p e m ev).resp = s.resp ∧
    (s.pumping l p e m ev).done = s.done ∧ (s.pumping l p e m ev).ctrl = s.ctrl ∧
    (s.pumping l p e m ev).env = e ∧ (s.pumping l p e m ev).mem = m ∧
    (s.pumping l p e m ev).trace = ev.reverse ++ s.trace :=
  ⟨rfl, rfl, rfl, rfl, rfl, rfl, rfl, rfl, rfl⟩

/-- Two stretches of a chunk are one. -/
theorem pumping_pumping (s : State) (l l' : Label) (p p' : Pump) (e e' : Env) (m m' : Memory) (ev ev' : List Event) :
    (s.pumping l p e m ev).pumping l' p' e' m' ev' = s.pumping l' p' e' m' (ev ++ ev') := by
  simp [State.pumping, goto, State.setPump, State.setEnv, State.setMem, State.setTrace, State.setCtl]

section
variable {s : State}

/-! ### One byte -/

/-- P4 with a byte left in the chunk: one RXFIFO read, then the store of its low byte at the cursor (R241). -/
theorem run_readByte (h : Serving s) (hl : s.ctl.seq = .readPump .p4) (hj : s.pump.j < s.pump.chunk) {v : Word}
    {rest : List Word} (hrx : s.env.rx = v :: rest) :
    ∃ t, run 2 s = .next t ∧ Serving t ∧
      t = s.pumping (.readPump .p4) { s.pump with cur := s.pump.cur + 1, j := s.pump.j + 1, v := v }
        { s.env with rx := rest } (s.mem.write s.pump.cur.toNat (lowByte v))
        [.read 0x40 v, .memWrite s.pump.cur (lowByte v)] := by
  obtain ⟨run0, h1⟩ := run_readPumpStep (k := 1) h hl (if_pos hj) h.busy
  obtain ⟨run1, h2⟩ := run_readPumpStep (k := 0) h1 rfl rfl h.busy
  refine ⟨_, run0.trans run1, h2, ?_⟩
  rw [← readValue_rxfifo hrx, ← consume_rxfifo hrx]
  rfl

/-- W4 with a byte left in the chunk: one buffer read at the cursor, then the TXFIFO write of its byte (R242). -/
theorem run_sendByte (h : Serving s) (hl : s.ctl.seq = .writePump .w4) (hj : s.pump.j < s.pump.chunk) {b : Byte}
    (hb : s.mem.read s.pump.cur.toNat = b) :
    ∃ t, run 2 s = .next t ∧ Serving t ∧
      t = s.pumping (.writePump .w4) { s.pump with cur := s.pump.cur + 1, j := s.pump.j + 1, b := b }
        { s.env with tx := s.env.tx ++ [b] } s.mem [.memRead s.pump.cur b, .write 0x44 (b.setWidth 32)] := by
  obtain ⟨run0, h1⟩ := run_writePumpStep (k := 1) h hl (if_pos hj) h.busy
  obtain ⟨run1, h2⟩ := run_writePumpStep (k := 0) h1 rfl rfl h.busy
  refine ⟨_, run0.trans run1, h2, ?_⟩
  rw [← absorb_byte, ← hb]
  rfl

/-! ### A whole chunk -/

/-- The cursor is as far from the end of a chunk as the byte index is. -/
theorem cursor_step (cur chunk j : Word) : cur + 1 + (chunk - (j + 1)) = cur + (chunk - j) := by
  bv_omega

/-- P4 to P5: as many RXFIFO reads as the chunk has bytes left, each followed by the store of its low byte (R241). -/
theorem run_readChunk {vs rest : List Word} (h : Serving s) (hl : s.ctl.seq = .readPump .p4)
    (hj : s.pump.j.toNat + vs.length = s.pump.chunk.toNat) (hrx : s.env.rx = vs ++ rest) :
    ∃ v, run (2 * vs.length + 1) s = .next (s.pumping (.readPump .p5)
      { s.pump with cur := s.pump.cur + (s.pump.chunk - s.pump.j), j := s.pump.chunk, v := v }
      { s.env with rx := rest } (s.mem.store s.pump.cur (vs.map lowByte)) (readChunkEvents s.pump.cur vs)) := by
  induction vs generalizing s with
  | nil =>
    have hj : s.pump.j = s.pump.chunk := BitVec.eq_of_toNat_eq hj
    obtain ⟨hrun, _⟩ := run_readPumpStep (k := 0) h hl (if_neg (hj ▸ BitVec.lt_irrefl _)) h.busy
    refine ⟨s.pump.v, hrun.trans ?_⟩
    rw [← hj, BitVec.sub_self, BitVec.add_zero, ← show s.env.rx = rest from hrx]
    rfl
  | cons v vs ih =>
    rw [List.length_cons] at hj
    have hlt : s.pump.j < s.pump.chunk := by bv_omega
    obtain ⟨t, hrun, ht, rfl⟩ := run_readByte h hl hlt hrx
    have hj' : (s.pump.j + 1).toNat + vs.length = s.pump.chunk.toNat := by bv_omega
    obtain ⟨w, hruns⟩ := ih ht rfl hj' rfl
    refine ⟨w, ?_⟩
    rw [List.length_cons, Nat.mul_succ, Nat.add_right_comm, Nat.add_comm, run_add hrun, hruns, pumping_pumping,
      ← cursor_step s.pump.cur s.pump.chunk s.pump.j]
    rfl

/-- W4 to W5: as many buffer reads as the chunk has bytes left, each followed by the TXFIFO write of its byte (R242). -/
theorem run_writeChunk {n : Nat} (h : Serving s) (hl : s.ctl.seq = .writePump .w4)
    (hj : s.pump.j.toNat + n = s.pump.chunk.toNat) (hrange : s.pump.cur.toNat + n ≤ 2 ^ 32) :
    ∃ b, run (2 * n + 1) s = .next (s.pumping (.writePump .w5)
      { s.pump with cur := s.pump.cur + (s.pump.chunk - s.pump.j), j := s.pump.chunk, b := b }
      { s.env with tx := s.env.tx ++ s.mem.bytes s.pump.cur.toNat n } s.mem
      (writeChunkEvents s.pump.cur (s.mem.bytes s.pump.cur.toNat n))) := by
  induction n generalizing s with
  | zero =>
    have hj : s.pump.j = s.pump.chunk := BitVec.eq_of_toNat_eq hj
    obtain ⟨hrun, _⟩ := run_writePumpStep (k := 0) h hl (if_neg (hj ▸ BitVec.lt_irrefl _)) h.busy
    refine ⟨s.pump.b, hrun.trans ?_⟩
    rw [← hj, BitVec.sub_self, BitVec.add_zero, bytes_zero, List.append_nil]
    rfl
  | succ n ih =>
    have hlt : s.pump.j < s.pump.chunk := by bv_omega
    obtain ⟨t, hrun, ht, rfl⟩ := run_sendByte h hl hlt rfl
    have hj' : (s.pump.j + 1).toNat + n = s.pump.chunk.toNat := by bv_omega
    obtain ⟨b, hruns⟩ := ih ht rfl hj' (succ_range hrange)
    refine ⟨b, ?_⟩
    rw [Nat.mul_succ, Nat.add_right_comm, Nat.add_comm, run_add hrun, hruns, pumping_pumping,
      ← cursor_step s.pump.cur s.pump.chunk s.pump.j, bytes_step _ hrange,
      List.append_cons _ _ (s.mem.bytes (s.pump.cur + 1).toNat n)]
    rfl

end

/-- Settles O18: the run of the chunk, and what the stores leave to be read. -/
theorem readChunkMovesBytes : Obligations.ReadChunkMovesBytes := by
  intro s vs rest h hl hj hw hlen hrange hrx
  have hrange' : s.pump.cur.toNat + (vs.map lowByte).length ≤ 2 ^ 32 := by rwa [List.length_map]
  obtain ⟨v, hrun⟩ := run_readChunk h hl (by simp [hj, hlen]) hrx
  refine ⟨_, hrun, rfl, rfl, rfl, rfl, by simp [hj], rfl, fun k hk => ?_, fun a ha => ?_, rfl, rfl, rfl, rfl, rfl⟩
  · exact (read_store_inside hw hrange' (by rwa [List.length_map])).trans (List.getElem_map _)
  · exact read_store_outside hw hrange' (by rwa [List.length_map])

/-- Settles O19: the run of the chunk. -/
theorem writeChunkSendsBytes : Obligations.WriteChunkSendsBytes := by
  intro s h hl hj hrange
  obtain ⟨b, hrun⟩ := run_writeChunk h hl (by simp [hj]) hrange
  exact ⟨_, hrun, rfl, rfl, rfl, rfl, by simp [hj], rfl, rfl, rfl, rfl, rfl, rfl, rfl⟩

end Sys2Proof.Machine
end

section
/-! PROOFS. The order within an iteration of a pump: the chunk, the partial-buffer signal, the error test
(spec/44_data_pump.md R243 to R245). -/

namespace Sys2Proof.Machine

/-! ### The partial-buffer signal (R244) -/

/-- A chunk is as long as what remains, up to the FIFO's 32 bytes (R243). -/
theorem chunkSize_toNat (rem : Word) : (chunkSize rem).toNat = min rem.toNat 32 := by
  unfold chunkSize
  split
  · rename_i h
    exact (Nat.min_eq_left h).symm
  · rename_i h
    exact (Nat.min_eq_right (Nat.le_of_not_le h)).symm

/-- A chunk is shorter than the FIFO exactly when less than a FIFO of bytes remains. -/
theorem chunkSize_lt_fifo_iff (rem : Word) : (chunkSize rem).toNat < 32 ↔ rem.toNat < 32 := by
  rw [chunkSize_toNat]
  omega

theorem signalPartial_of_short {s : State} (h : s.pump.chunk.toNat < 32) :
    signalPartial s = regWrite .prtbuf Config.prtbufPartial s := if_pos h

theorem signalPartial_of_full {s : State} (h : 32 ≤ s.pump.chunk.toNat) : signalPartial s = s :=
  if_neg (Nat.not_lt.mpr h)

/-- The signal writes PRTBUF at most. -/
@[simp] theorem signalPartial_fields (s : State) :
    (signalPartial s).ctl = s.ctl ∧ (signalPartial s).snap = s.snap ∧ (signalPartial s).pump = s.pump ∧
    (signalPartial s).resp = s.resp ∧ (signalPartial s).done = s.done ∧ (signalPartial s).env = s.env ∧
    (signalPartial s).mem = s.mem ∧
    (signalPartial s).ctrl.prtbuf = if s.pump.chunk.toNat < 32 then 0x1 else s.ctrl.prtbuf := by
  by_cases h : s.pump.chunk.toNat < 32
  · rw [signalPartial_of_short h, if_pos h]
    exact ⟨rfl, rfl, rfl, rfl, rfl, rfl, rfl, rfl⟩
  · rw [signalPartial_of_full (Nat.le_of_not_lt h), if_neg h]
    exact ⟨rfl, rfl, rfl, rfl, rfl, rfl, rfl, rfl⟩

/-- The value of a write of PRTBUF. -/
def Event.signal : Event → Option Word
  | .write offset v => if offset = 0x24 then some v else none
  | .read .. | .delay | .memRead .. | .memWrite .. => none

/-- The values of the writes of PRTBUF in a trace, in its order. -/
def signals (trace : List Event) : List Word := trace.filterMap Event.signal

section
variable (a v : Word) (b : Byte) (r : WriteReg) (trace : List Event)
@[simp] theorem signals_read : signals (.read a v :: trace) = signals trace := rfl
@[simp] theorem signals_delay : signals (.delay :: trace) = signals trace := rfl
@[simp] theorem signals_memRead : signals (.memRead a b :: trace) = signals trace := rfl
@[simp] theorem signals_memWrite : signals (.memWrite a b :: trace) = signals trace := rfl

/-- PRTBUF's offset is its own (R120). -/
@[simp] theorem signals_write :
    signals (.write r.offset v :: trace) = if r = .prtbuf then v :: signals trace else signals trace := by
  cases r <;> rfl
end

/-- Does the step at SEQ give the partial-buffer signal? -/
def State.signalsPartial (s : State) : Prop := s.ctl.seq = .writePump .w5 ∧ s.pump.chunk.toNat < 32

/-- After a short chunk W5 writes PRTBUF_PARTIAL to PRTBUF. -/
theorem procStep_signals_of_signalsPartial {s : State} (h : s.signalsPartial) :
    signals (procStep s).trace = 0x1 :: signals s.trace := by
  obtain ⟨hl, hshort⟩ := h
  simp [procStep, hl, writePumpStep, signalPartial_of_short hshort, Config.prtbufPartial]

/-- Every other step of a procedure leaves PRTBUF alone. -/
theorem procStep_signals_of_not {s : State} (h : ¬ s.signalsPartial) :
    signals (procStep s).trace = signals s.trace := by
  cases hl : s.ctl.seq with
  | idle => simp [procStep, hl]
  | execute l => cases l <;> simp [procStep, hl, executeStep, callPump, apply_ite State.trace, apply_ite signals]
  | stopClock l => cases l <;> simp [procStep, hl, stopClockStep, apply_ite State.trace]
  | startClock l => cases l <;> simp [procStep, hl, startClockStep]
  | await l => cases l <;> simp [procStep, hl, awaitStep, apply_ite State.trace]
  | issue l => cases l <;> simp [procStep, hl, issueStep]
  | decode l => cases l <;> simp [procStep, hl, decodeStep, apply_ite State.trace]
  | readPump l => cases l <;> simp [procStep, hl, readPumpStep, apply_ite State.trace, apply_ite signals]
  | writePump l =>
    cases l with
    | w5 =>
      have hfull : 32 ≤ s.pump.chunk.toNat := Nat.le_of_not_lt fun hshort => h ⟨hl, hshort⟩
      simp [procStep, hl, writePumpStep, signalPartial_of_full hfull]
    | _ => simp [procStep, hl, writePumpStep, apply_ite State.trace, apply_ite signals]
  | setRate l => cases l <;> simp [procStep, hl, setRateStep, apply_ite State.trace, apply_ite signals]
  | openHost l => cases l <;> simp [procStep, hl, openHostStep, apply_ite State.trace]

/-- Settles O23: W5's two cases, and the writes of PRTBUF that a step can add to the trace. -/
theorem partialBufferSignal : Obligations.PartialBufferSignal := by
  constructor
  · intro s h hl
    have hstep : step s = .next (goto (.writePump .w6) (signalPartial s)) := by
      rw [step_serving h, procStep, hl]
      rfl
    refine ⟨_, hstep, by simp, fun hshort => ?_, fun hfull => by rw [signalPartial_of_full hfull]⟩
    rw [signalPartial_of_short hshort]
    exact ⟨rfl, rfl⟩
  · intro s t v h htrace
    have hadds : signals t.trace = v :: signals s.trace := by rw [htrace]; rfl
    have hsilent : signals s.trace ≠ v :: signals s.trace := (List.cons_ne_self _ _).symm
    obtain ⟨rest, ⟨_, rfl⟩ | ⟨_, rfl, _⟩ | ⟨_, r, i, _, _, rfl⟩ | ⟨_, rfl⟩ | ⟨b, w, _, _, rfl⟩⟩ := step_cases h
    · exact absurd hadds hsilent
    · by_cases hs : (s.setHost rest).signalsPartial
      · rw [procStep_signals_of_signalsPartial hs] at hadds
        obtain ⟨hl, hshort⟩ := hs
        exact ⟨hl, hshort, (List.cons.inj hadds).1.symm⟩
      · rw [procStep_signals_of_not hs] at hadds
        exact absurd hadds hsilent
    · exact absurd hadds hsilent
    · exact absurd hadds hsilent
    · exact absurd hadds hsilent

/-! ### The error test (R245) -/

/-- An error in the snapshot completes the operation at the pump's error test. -/
theorem run_pump_error {s : State} (h : Serving s) (hl : s.ctl.seq = .readPump .p6 ∨ s.ctl.seq = .writePump .w7)
    (he : hasError s.snap = true) : run 1 s = .next (complete .transferIoError none s) := by
  have hp : s.ctl.seq.pumps = true := by rcases hl with hl | hl <;> rw [hl] <;> rfl
  have hraise : procStep s = raise .transferIoError s := by
    rcases hl with hl | hl <;> rw [procStep, hl] <;> exact if_pos he
  rw [run_serving h, hraise, raise_of_pumps _ h hp]
  rfl

section
variable {s : State} {v : Word} {rest : List Word}

/-- An error in the snapshot is one in the value its read returned (R123). -/
theorem hasError_of_pending (h : s.env.stat = v :: rest) (herr : v &&& 0x3F ≠ 0) :
    hasError (readValue .stat s) = true := by
  rw [readValue_stat h, hasError_eq]
  exact bne_iff_ne.mpr herr

/-- After a chunk READ_PUMP counts it and goes on to the error test. -/
theorem run_readPump_chunk_end (h : Serving s) (hl : s.ctl.seq = .readPump .p5) :
    run 1 s = .next (goto (.readPump .p6) (endChunk s)) ∧ Serving (goto (.readPump .p6) (endChunk s)) :=
  run_readPumpStep (k := 0) h hl rfl h.busy

/-- After a chunk WRITE_PUMP signals and counts it, and goes on to the error test. -/
theorem run_writePump_chunk_end (h : Serving s) (hl : s.ctl.seq = .writePump .w5) :
    run 2 s = .next (goto (.writePump .w7) (endChunk (signalPartial s))) ∧
      Serving (goto (.writePump .w7) (endChunk (signalPartial s))) := by
  have hb : (signalPartial s).ctl.busy = true := by simp [h.busy]
  obtain ⟨run5, h5⟩ := run_writePumpStep (k := 1) h hl rfl hb
  obtain ⟨run6, h6⟩ := run_writePumpStep (k := 0) h5 rfl rfl hb
  exact ⟨run5.trans run6, h6⟩

end

/-- Settles O21: without RXRDY the read is followed by the error test, with it by the chunk and then the error test. -/
theorem readyIsServedBeforeError : Obligations.ReadyIsServedBeforeError := by
  intro s v rest h hl hw hs herr
  have herr := hasError_of_pending hs herr
  constructor
  · intro hready
    obtain ⟨hread, h6⟩ := run_readPump_not_ready h hl (by rwa [readValue_stat hs])
    have hraise := run_pump_error h6 (.inl rfl) herr
    exact ⟨_, (run_add hread).trans hraise, rfl, rfl, rfl, (readStat_of_pending hs).1, rfl⟩
  · intro vs rx hready hlen hrange hrx
    obtain ⟨hread, h4⟩ := run_readPump_ready h hl (by rwa [readValue_stat hs])
    obtain ⟨w, hchunk⟩ := run_readChunk (vs := vs) (rest := rx) h4 rfl (by simp [chunkSize_toNat, hlen])
      (by simp [consume_stat hs, hrx])
    obtain ⟨hend, h6⟩ := run_readPump_chunk_end (serving_of_run h4 hchunk h.busy) rfl
    have hraise := run_pump_error h6 (.inl rfl) herr
    refine ⟨_, _, (run_add hread).trans ((run_add hchunk).trans ((run_add hend).trans hraise)), rfl, rfl, rfl,
      by simp [consume_stat hs], fun k hk => ?_⟩
    exact (read_store_inside hw (by rwa [List.length_map]) (by rwa [List.length_map])).trans (List.getElem_map _)

/-- Settles O22: without TXRDY the read is followed by the error test, with it by the chunk, the signal and then the
error test. -/
theorem writeReadyIsServedBeforeError : Obligations.WriteReadyIsServedBeforeError := by
  intro s v rest h hl hs herr
  have herr := hasError_of_pending hs herr
  constructor
  · intro hready
    obtain ⟨hread, h7⟩ := run_writePump_not_ready h hl (by rwa [readValue_stat hs])
    have hraise := run_pump_error h7 (.inr rfl) herr
    obtain ⟨htrace, henv⟩ := readStat_of_pending hs
    exact ⟨_, (run_add hread).trans hraise, rfl, rfl, rfl, htrace, henv, rfl⟩
  · intro hready hrange
    obtain ⟨hread, h4⟩ := run_writePump_ready h hl (by rwa [readValue_stat hs])
    obtain ⟨b, hchunk⟩ := run_writeChunk (n := min s.pump.rem.toNat 32) h4 rfl (by simp [chunkSize_toNat]) hrange
    obtain ⟨hend, h7⟩ := run_writePump_chunk_end (serving_of_run h4 hchunk h.busy) rfl
    have hraise := run_pump_error h7 (.inr rfl) (by simpa using herr)
    exact ⟨_, _, (run_add hread).trans ((run_add hchunk).trans ((run_add hend).trans hraise)), rfl, by simp, by simp,
      by simp, by simp [chunkSize_lt_fifo_iff], by simp [consume_stat hs], by simp [consume_stat hs]⟩

end Sys2Proof.Machine
end

section
/-! PROOFS. The frames of the three forms of EXECUTE: what a step of each leaves alone (spec/45_host_adapter.md R286 to
R288). -/

namespace Sys2Proof.Machine

/-! ### The parts of the state that a form of EXECUTE leaves alone -/

/-- What SET_RATE and OPEN alone write, with the answers pending for OPEN's draw. -/
structure SystemPart where
  rate : Divider
  alloc : AllocDraw
  inst : HostInst
  draws : List AllocDraw
  clkrt : Word
  spi : Word
  iMask : Word

/-- What the data phase alone writes: the buffer, the pump registers, the data FIFOs and the data registers. -/
structure DataPart where
  mem : Memory
  pump : Pump
  rx : List Word
  tx : List Byte
  nob : Word
  blklen : Word
  resto : Word
  prtbuf : Word

def State.systemPart (s : State) : SystemPart where
  rate := s.rate
  alloc := s.alloc
  inst := s.done.inst
  draws := s.env.alloc
  clkrt := s.ctrl.clkrt
  spi := s.ctrl.spi
  iMask := s.ctrl.iMask

def State.dataPart (s : State) : DataPart where
  mem := s.mem
  pump := s.pump
  rx := s.env.rx
  tx := s.env.tx
  nob := s.ctrl.nob
  blklen := s.ctrl.blklen
  resto := s.ctrl.resto
  prtbuf := s.ctrl.prtbuf

/-- What a command without a data phase leaves alone (R286). -/
def State.besideCommand (s : State) : SystemPart × DataPart := (s.systemPart, s.dataPart)

/-- What EXECUTE's own steps leave alone, with a data phase or without. -/
def State.besideSetup (s : State) : SystemPart × List Word × List Byte × Word :=
  (s.systemPart, s.env.rx, s.env.tx, s.ctrl.prtbuf)

/-- What the steps of a read leave alone (R287), the stores in memory apart. -/
def State.besideRead (s : State) : SystemPart × List Byte × Word := (s.systemPart, s.env.tx, s.ctrl.prtbuf)

/-- What the steps of a write leave alone (R288), memory apart. -/
def State.besideWrite (s : State) : SystemPart × List Word := (s.systemPart, s.env.rx)

/-! ### What tests, ends and reads leave alone -/

section
variable {α : Type} {f : State → α} {s t u : State}

/-- A test leaves alone what both its branches do. -/
theorem branch_keeps {c : Prop} [Decidable c] (ht : f t = f s) (hu : f u = f s) : f (if c then t else u) = f s := by
  split
  · exact ht
  · exact hu

/-- A return writes the control registers, `RESULT` and `SITE` at most. -/
theorem ret_keeps
    (h : ∀ c r site, f ((s.setDone { s.done with result := r, site := site }).setCtl c) = f s := by intros; rfl) :
    f (ret s) = f s := by
  rcases ret_cases s with ⟨_, hret⟩ | ⟨back, stk, _, hret⟩ <;> rw [hret]
  · exact h _ _ _
  · exact h _ s.done.result s.done.site

/-- A raise writes the control registers, `RESULT` and `SITE` at most. -/
theorem raise_keeps (e : Err)
    (h : ∀ c r site, f ((s.setDone { s.done with result := r, site := site }).setCtl c) = f s := by intros; rfl) :
    f (raise e s) = f s := by
  rcases raise_cases e s with ⟨_, hraise⟩ | ⟨back, stk, _, hraise⟩ <;> rw [hraise]
  · exact h _ _ _
  · exact h _ s.done.result s.done.site

end

/-- A read consumes an answer of its own register or draws a free value. -/
theorem consume_eq (e : Env) (r : ReadReg) :
    ∃ stat res rx draws, e.consume r = { e with stat := stat, res := res, rx := rx, draws := draws } ∧
      (r ≠ .rxfifo → rx = e.rx) := by
  unfold Env.consume
  split
  · exact ⟨e.stat, e.res, e.rx, e.draws + 1, rfl, fun _ => rfl⟩
  · rename_i rest _
    cases r with
    | stat => exact ⟨rest, e.res, e.rx, e.draws, rfl, fun _ => rfl⟩
    | res => exact ⟨e.stat, rest, e.rx, e.draws, rfl, fun _ => rfl⟩
    | rxfifo => exact ⟨e.stat, e.res, rest, e.draws, rfl, (absurd rfl ·)⟩

/-- A read of STAT or RES leaves alone what a command does. -/
theorem afterRead_besideCommand {r : ReadReg} (hr : r ≠ .rxfifo) (s : State) :
    (afterRead r s).besideCommand = s.besideCommand := by
  obtain ⟨stat, res, rx, draws, he, hrx⟩ := consume_eq s.env r
  simp [State.besideCommand, State.systemPart, State.dataPart, he, hrx hr]

theorem readStat_besideCommand (s : State) : (readStat s).besideCommand = s.besideCommand :=
  afterRead_besideCommand (r := .stat) nofun s

/-! ### The procedures of a command -/

theorem stopClockStep_besideCommand (s : State) (l : StopClockLabel) :
    (stopClockStep s l).besideCommand = s.besideCommand := by
  cases l with
  | s0 => exact readStat_besideCommand s
  | s1 => exact branch_keeps rfl ret_keeps
  | s2 | s3 => rfl
  | s4 => exact ret_keeps

theorem startClockStep_besideCommand (s : State) (l : StartClockLabel) :
    (startClockStep s l).besideCommand = s.besideCommand := by
  cases l with
  | t0 | t1 => rfl
  | t2 => exact ret_keeps

theorem awaitStep_besideCommand (s : State) (l : AwaitLabel) :
    (awaitStep s l).besideCommand = s.besideCommand := by
  cases l with
  | a0 | a4 => rfl
  | a1 => exact readStat_besideCommand s
  | a2 => exact branch_keeps ret_keeps rfl
  | a3 => exact branch_keeps (raise_keeps _) rfl

theorem issueStep_besideCommand (s : State) (l : IssueLabel) :
    (issueStep s l).besideCommand = s.besideCommand := by
  cases l with
  | i0 | i1 | i2 | i3 | i4 | i5 | i6 => rfl
  | i7 => exact ret_keeps

theorem decodeStep_besideCommand (s : State) (l : DecodeLabel) :
    (decodeStep s l).besideCommand = s.besideCommand := by
  cases l with
  | dc0 => exact readStat_besideCommand s
  | dc2 | dc4 | dc5 => exact afterRead_besideCommand (r := .res) nofun s
  | dc3 | dc6 | dc7 => rfl
  | dc1 => exact branch_keeps (raise_keeps _) rfl
  | dc8 | dc9 => exact branch_keeps rfl rfl
  | dc10 => exact branch_keeps ret_keeps rfl
  | dc11 => exact raise_keeps _
  | dc12 => exact ret_keeps

/-- EXECUTE without a data phase writes no data register (R286). -/
theorem executeStep_besideCommand {s : State} {l : ExecuteLabel} (hl : inExec (.execute l) = true)
    (hd : s.data = false) : (executeStep s l).besideCommand = s.besideCommand := by
  have hd : ¬ s.data = true := Bool.eq_false_iff.mp hd
  cases l with
  | e0 | e1 | e3 | e4 | e5 | e6 => rfl
  | e2 | e7 =>
    rw [executeStep, if_neg hd]
    rfl
  | e2Blklen | e2Resto => cases hl
  | e8 => exact ret_keeps

theorem executeStep_besideSetup (s : State) (l : ExecuteLabel) :
    (executeStep s l).besideSetup = s.besideSetup := by
  cases l with
  | e0 | e1 | e2Blklen | e2Resto | e3 | e4 | e5 | e6 => rfl
  | e2 => exact branch_keeps rfl rfl
  | e7 => exact branch_keeps (branch_keeps rfl rfl) rfl
  | e8 => exact ret_keeps

/-- At a label of a procedure that every form of EXECUTE calls, a step leaves alone what a command does. -/
theorem procStep_besideCommand_of_called {s : State} (hr : inExec s.ctl.seq = true)
    (he : ∀ l, s.ctl.seq ≠ .execute l) : (procStep s).besideCommand = s.besideCommand := by
  cases hl : s.ctl.seq with
  | stopClock l => simpa only [procStep, hl] using stopClockStep_besideCommand s l
  | startClock l => simpa only [procStep, hl] using startClockStep_besideCommand s l
  | await l => simpa only [procStep, hl] using awaitStep_besideCommand s l
  | issue l => simpa only [procStep, hl] using issueStep_besideCommand s l
  | decode l => simpa only [procStep, hl] using decodeStep_besideCommand s l
  | execute l => exact absurd hl (he l)
  | idle | readPump | writePump | setRate | openHost => rw [hl] at hr; cases hr

/-- A step of EXEC (R286). -/
theorem procStep_besideCommand {s : State} (hr : inExec s.ctl.seq = true) (hd : s.data = false) :
    (procStep s).besideCommand = s.besideCommand := by
  cases hl : s.ctl.seq with
  | execute l => simpa only [procStep, hl] using executeStep_besideCommand (hl ▸ hr) hd
  | _ => exact procStep_besideCommand_of_called hr (by rw [hl]; exact nofun)

/-! ### The pumps -/

section
variable {s t : State}

theorem besideRead_of_besideCommand (h : t.besideCommand = s.besideCommand) : t.besideRead = s.besideRead :=
  congrArg (fun p => (p.1, p.2.tx, p.2.prtbuf)) h

theorem besideWrite_of_besideCommand (h : t.besideCommand = s.besideCommand) : t.besideWrite = s.besideWrite :=
  congrArg (fun p => (p.1, p.2.rx)) h

end

theorem readPumpStep_besideRead (s : State) (l : ReadPumpLabel) : (readPumpStep s l).besideRead = s.besideRead := by
  cases l with
  | p0 | p4Store | p5 | p7 | p8 => rfl
  | p2 => exact besideRead_of_besideCommand (readStat_besideCommand s)
  | p1 | p3 => exact branch_keeps rfl rfl
  | p4 =>
    refine branch_keeps ?_ rfl
    obtain ⟨stat, res, rx, draws, he, _⟩ := consume_eq s.env .rxfifo
    simp [State.besideRead, State.systemPart, he]
  | p6 => exact branch_keeps (raise_keeps _) rfl
  | p9 => exact ret_keeps

theorem writePumpStep_besideWrite (s : State) (l : WritePumpLabel) :
    (writePumpStep s l).besideWrite = s.besideWrite := by
  cases l with
  | w0 | w4Send | w6 | w8 | w9 | w10 => rfl
  | w2 => exact besideWrite_of_besideCommand (readStat_besideCommand s)
  | w1 | w3 | w4 => exact branch_keeps rfl rfl
  | w5 => exact branch_keeps (f := fun u => (goto (.writePump .w6) u).besideWrite) rfl rfl
  | w7 => exact branch_keeps (raise_keeps _) rfl
  | w11 => exact ret_keeps

/-- A step of EXEC.RD (R287). -/
theorem procStep_besideRead {s : State} (hr : inExecRd s.ctl.seq = true) :
    (procStep s).besideRead = s.besideRead := by
  cases hl : s.ctl.seq with
  | execute l =>
    rw [procStep, hl]
    exact congrArg (fun p => (p.1, p.2.2)) (executeStep_besideSetup s l)
  | readPump l => simpa only [procStep, hl] using readPumpStep_besideRead s l
  | stopClock | startClock | await | issue | decode =>
    exact besideRead_of_besideCommand (procStep_besideCommand_of_called (by rw [hl]; rfl) (by rw [hl]; exact nofun))
  | idle | writePump | setRate | openHost => rw [hl] at hr; cases hr

/-- A step of EXEC.WR (R288). -/
theorem procStep_besideWrite {s : State} (hr : inExecWr s.ctl.seq = true) :
    (procStep s).besideWrite = s.besideWrite := by
  cases hl : s.ctl.seq with
  | execute l =>
    rw [procStep, hl]
    exact congrArg (fun p => (p.1, p.2.1)) (executeStep_besideSetup s l)
  | writePump l => simpa only [procStep, hl] using writePumpStep_besideWrite s l
  | stopClock | startClock | await | issue | decode =>
    exact besideWrite_of_besideCommand (procStep_besideCommand_of_called (by rw [hl]; rfl) (by rw [hl]; exact nofun))
  | idle | readPump | setRate | openHost => rw [hl] at hr; cases hr

/-! ### The frames -/

/-- The word of EXEC has no data phase (R137). -/
theorem data_of_exec {s : State} {cmd : BitVec 6} {rt : RType} {crc busyf w4 : Bool}
    (h : s.rq.req = encode (.exec cmd rt crc busyf w4)) : s.data = false := by
  simp [State.data, h, encode]

/-- What every meaning leaves alone: the port, the host's moves and, in flight, the latched request. -/
theorem exec_keeps {i : Instr} {s t : State} (h : exec i s = .next t) :
    t.port = s.port ∧ t.host = s.host ∧ (s.ctl.busy = true → t.rq = s.rq) := by
  rcases exec_cases h with ⟨_, _, _, rfl⟩ | ⟨hb, _, rfl⟩
  · obtain ⟨hrq, hport, hhost⟩ := procStep_keeps s
    exact ⟨hport, hhost, fun _ => hrq⟩
  · exact ⟨rfl, rfl, fun hbusy => absurd (hb.symm.trans hbusy) nofun⟩

/-- Settles O53: a step of EXEC is an acceptance or the step of a procedure of a command without data. -/
theorem execFrame : Obligations.ExecFrame := by
  intro s t cmd rt crc busyf w4 h
  have hbeside : t.besideCommand = s.besideCommand := by
    rcases exec_cases h with ⟨_, hw, hr, rfl⟩ | ⟨_, _, rfl⟩
    · exact procStep_besideCommand hr (data_of_exec hw)
    · rfl
  obtain ⟨hport, hhost, hrq⟩ := exec_keeps h
  simp only [State.besideCommand, State.systemPart, State.dataPart, Prod.mk.injEq, SystemPart.mk.injEq,
    DataPart.mk.injEq] at hbeside
  obtain ⟨⟨hrate, halloc, hinst, hdraws, hclkrt, hspi, hmask⟩, hmem, hpump, hrx, htx, hnob, hblklen, hresto, hprtbuf⟩ :=
    hbeside
  exact ⟨fun a => by rw [hmem], hpump, hrate, halloc, hinst, hport, hhost, hrx, htx, hdraws, hnob, hblklen, hresto,
    hprtbuf, hclkrt, hspi, hmask, hrq⟩

/-- Settles O54: READ_PUMP's store is the one write of memory, at the cursor. -/
theorem execRdFrame : Obligations.ExecRdFrame := by
  intro s t cmd rt crc busyf w4 hwf h
  obtain ⟨hport, hhost, hrq⟩ := exec_keeps h
  have hmem : ∀ a, (s.ctl.busy = true ∧ s.ctl.seq = .readPump .p4Store → a ≠ s.pump.cur.toNat) →
      t.mem.read a = s.mem.read a := by
    intro a ha
    rcases exec_cases h with ⟨hb, _, _, rfl⟩ | ⟨_, _, rfl⟩
    · by_cases hl : s.ctl.seq = .readPump .p4Store
      · rw [procStep_mem_p4Store hl, read_write _ _ _ hwf, if_neg (ha ⟨hb, hl⟩)]
      · rw [procStep_mem hl]
    · rfl
  have hbeside : t.besideRead = s.besideRead := by
    rcases exec_cases h with ⟨_, _, hr, rfl⟩ | ⟨_, _, rfl⟩
    · exact procStep_besideRead hr
    · rfl
  simp only [State.besideRead, State.systemPart, Prod.mk.injEq, SystemPart.mk.injEq] at hbeside
  obtain ⟨⟨hrate, halloc, hinst, hdraws, hclkrt, hspi, hmask⟩, htx, hprtbuf⟩ := hbeside
  exact ⟨hmem, hrate, halloc, hinst, hport, hhost, htx, hdraws, hprtbuf, hclkrt, hspi, hmask, hrq⟩

/-- Settles O55: no label of EXEC.WR writes memory or reads RXFIFO. -/
theorem execWrFrame : Obligations.ExecWrFrame := by
  intro s t cmd rt crc busyf w4 h
  obtain ⟨hport, hhost, hrq⟩ := exec_keeps h
  have hmem : t.mem = s.mem := by
    rcases exec_cases h with ⟨_, _, hr, rfl⟩ | ⟨_, _, rfl⟩
    · exact procStep_mem fun hl => by rw [hl] at hr; cases hr
    · rfl
  have hbeside : t.besideWrite = s.besideWrite := by
    rcases exec_cases h with ⟨_, _, hr, rfl⟩ | ⟨_, _, rfl⟩
    · exact procStep_besideWrite hr
    · rfl
  simp only [State.besideWrite, State.systemPart, Prod.mk.injEq, SystemPart.mk.injEq] at hbeside
  obtain ⟨⟨hrate, halloc, hinst, hdraws, hclkrt, hspi, hmask⟩, hrx⟩ := hbeside
  exact ⟨fun a => by rw [hmem], hrate, halloc, hinst, hport, hhost, hrx, hdraws, hclkrt, hspi, hmask, hrq⟩

end Sys2Proof.Machine
end

section
/-! PROOFS. EXECUTE from its acceptance to the command's end: the calls of STOP_CLOCK, ISSUE and START_CLOCK and the
three waits (spec/45_host_adapter.md R280 to R284). -/

namespace Sys2Proof.Machine

/-! ### Runs of some length -/

/-- Some number of steps leads from `s` to `t`. -/
def Reaches (s t : State) : Prop := ∃ k, run k s = .next t

namespace Reaches

variable {s t u : State}

theorem trans (h : Reaches s t) (h' : Reaches t u) : Reaches s u := by
  obtain ⟨m, hm⟩ := h
  obtain ⟨n, hn⟩ := h'
  exact ⟨m + n, (run_add hm).trans hn⟩

/-- A serving block that is still busy serves on. -/
theorem serving (h : Reaches s t) (hs : Serving s) (hb : t.ctl.busy = true) : Serving t :=
  have ⟨_, hrun⟩ := h
  serving_of_run hs hrun hb

/-- One step more, of a block that is still busy. -/
theorem step (h : Reaches s t) (hs : Serving s) (hb : t.ctl.busy = true) (hu : procStep t = u) : Reaches s u :=
  h.trans ⟨1, (run_serving (h.serving hs hb)).trans (hu ▸ rfl)⟩

/-- A return to a caller. -/
theorem returns {l back : Label} {stk : List Label} (h : Reaches s t) (hs : Serving s)
    (hc : t.ctl = { seq := l, stk := back :: stk, busy := true }) (hret : procStep t = ret t) :
    Reaches s (t.setCtl { seq := back, stk := stk, busy := true }) :=
  h.step hs (by rw [hc]) (hret.trans (ret_to_caller (by rw [hc]) (by rw [hc])))

end Reaches

/-! ### What the steps before the data phase make of the state -/

/-- From `s` to `t` these events were performed, oldest first, and they left this response, these controller registers
and this environment; the latched request, the completion record and the buffer are as they were. -/
structure Performed (s : State) (events : List Event) (resp : Response) (ctrl : CtrlRegs) (e : Env) (t : State) :
    Prop where
  rq : t.rq = s.rq := by rfl
  done : t.done = s.done := by rfl
  mem : t.mem = s.mem := by rfl
  resp : t.resp = resp := by rfl
  ctrl : t.ctrl = ctrl := by rfl
  env : t.env = e := by rfl
  trace : t.trace = events.reverse ++ s.trace := by rfl

theorem Performed.trans {s t u : State} {ev ev' : List Event} {r r' : Response} {c c' : CtrlRegs} {e e' : Env}
    (h : Performed s ev r c e t) (h' : Performed t ev' r' c' e' u) : Performed s (ev ++ ev') r' c' e' u where
  rq := h'.rq.trans h.rq
  done := h'.done.trans h.done
  mem := h'.mem.trans h.mem
  resp := h'.resp
  ctrl := h'.ctrl
  env := h'.env
  trace := by rw [h'.trace, h.trace, List.reverse_append, List.append_assoc]

/-- What a stretch performed does not rest on the control registers it leaves. -/
theorem Performed.setCtl {s t : State} {ev : List Event} {r : Response} {c : CtrlRegs} {e : Env}
    (h : Performed s ev r c e t) (x : Control) : Performed s ev r c e (t.setCtl x) :=
  ⟨h.rq, h.done, h.mem, h.resp, h.ctrl, h.env, h.trace⟩

/-- `SNAP <- RegRead(STAT)`. -/
theorem performed_readStat (s : State) :
    Performed s [.read ReadReg.stat.offset s.env.nextStat] s.resp s.ctrl (s.env.consume .stat) (readStat s) := {}

/-- A register write. -/
theorem performed_regWrite (r : WriteReg) (v : Word) (s : State) :
    Performed s [.write r.offset v] s.resp (s.ctrl.put v r) (s.env.absorb v r) (regWrite r v s) := {}

/-- An error that no caller discards completes the operation (R387). -/
theorem raise_of_uncaught (e : Err) {s : State} (h : catcher s.ctl.stk = none) :
    raise e s = complete e.result e.site s := by
  simp [raise, h]

/-! ### The procedures called before the data phase -/

section
variable {s : State} {back : Label} {stk : List Label} {mask : Word} {pol : Polarity} {site : Site} {v : Word}
  {answers : List Word} {e : Env}

/-- AWAIT with a last answer that meets the condition resumes its caller (R152). -/
theorem await_returns (h : Serving s) (hl : s.ctl.seq = .await (.a0 mask pol site)) (hs : s.ctl.stk = back :: stk)
    (ha : s.env.Answers answers e) (hok : PollOk mask pol answers) :
    ∃ t, Reaches s t ∧ t.ctl = { seq := back, stk := stk, busy := true } ∧ t.flags = s.flags ∧
      Performed s (pollEvents answers) s.resp s.ctrl e t := by
  obtain ⟨k, p, v, hrun⟩ := run_await_ok h hl hs ha hok
  exact ⟨_, ⟨k, hrun⟩, rfl, rfl, {}⟩

/-- AWAIT with answers that fail the condition ends an operation that discards no error (R152, R387). -/
theorem await_times_out (h : Serving s) (hl : s.ctl.seq = .await (.a0 mask pol site))
    (hs : catcher s.ctl.stk = none) (ha : s.env.Answers answers e) (hf : PollFails mask pol answers) :
    ∃ t, Reaches s (complete .timeout (some site) t) ∧ Performed s (pollEvents answers) s.resp s.ctrl e t := by
  obtain ⟨k, p, v, hrun⟩ := run_await_fails h hl ha hf
  rw [raise_of_uncaught _ (s := s.polled p v e (pollEvents answers)) hs] at hrun
  exact ⟨_, ⟨k, hrun⟩, {}⟩

/-- STOP_CLOCK whose read finds CLK_EN set writes STRPCL and waits for it to clear (R170). -/
theorem stopClock_waits (h : Serving s) (hl : s.ctl.seq = .stopClock .s0)
    (hv : bitSet s.env.nextStat bitClkEn = true) :
    ∃ t, Reaches s t ∧ Serving t ∧ t.ctl.seq = .await (.a0 (bitMask bitClkEn) .clear .clkStop) ∧
      t.ctl.stk = .stopClock .s4 :: s.ctl.stk ∧ t.flags = s.flags ∧
      Performed s [.read ReadReg.stat.offset s.env.nextStat, .write WriteReg.strpcl.offset Config.strpclStop] s.resp
        { s.ctrl with strpcl := Config.strpclStop } (s.env.consume .stat) t := by
  have hcall := run_stopClock_of_running h hl hv
  have hread := performed_readStat s
  have hwrite := performed_regWrite .strpcl Config.strpclStop (readStat s)
  exact ⟨_, ⟨4, hcall⟩, serving_of_run h hcall h.busy, by simp, by simp, by simp, (hread.trans hwrite).setCtl _⟩

/-- The events of a STOP_CLOCK that polls. -/
theorem stopEvents_of_pollOk {polled : List Word} (v : Word) (h : PollOk mask pol polled) :
    stopEvents (v :: polled) =
      [.read ReadReg.stat.offset v, .write WriteReg.strpcl.offset Config.strpclStop] ++ pollEvents polled := by
  cases polled with
  | nil => obtain ⟨fails, w, hnil, _⟩ := h; simp at hnil
  | cons => simp only [stopEvents, List.cons_append, List.nil_append]

/-- STOP_CLOCK with answers that let it succeed resumes its caller (R170). -/
theorem stopClock_returns (h : Serving s) (hl : s.ctl.seq = .stopClock .s0) (hs : s.ctl.stk = back :: stk)
    (ha : s.env.Answers answers e) (hok : StopOk answers) :
    ∃ x t, Reaches s t ∧ t.ctl = { seq := back, stk := stk, busy := true } ∧ t.flags = s.flags ∧
      Performed s (stopEvents answers) s.resp { s.ctrl with strpcl := x } e t := by
  cases answers with
  | nil => cases hok
  | cons v polled =>
    obtain ⟨rfl, ha⟩ := ha
    cases hv : bitSet s.env.nextStat bitClkEn with
    | false =>
      obtain rfl : polled = [] := by simpa [StopOk, hv] using hok
      obtain rfl := ha
      have hrun := run_stopClock_of_stopped h hl hv
      rw [ret_to_caller (s := readStat s) h.busy hs] at hrun
      exact ⟨s.ctrl.strpcl, _, ⟨2, hrun⟩, rfl, rfl, {}⟩
    | true =>
      have hpoll : PollOk (bitMask bitClkEn) .clear polled := by simpa [StopOk, hv] using hok
      obtain ⟨t, hcall, hserving, hseq, hstk, hflags, ht⟩ := stopClock_waits h hl hv
      obtain ⟨u, hwait, hctl, hflags', hu⟩ :=
        await_returns hserving hseq (hstk.trans (by rw [hs])) (ht.env ▸ ha) hpoll
      have hret := (hcall.trans hwait).returns h hctl (procStep_stopClock (by rw [hctl]))
      refine ⟨Config.strpclStop, _, hret, rfl, hflags'.trans hflags, ?_⟩
      rw [stopEvents_of_pollOk _ hpoll]
      have := ht.trans hu
      rw [ht.resp, ht.ctrl] at this
      exact this.setCtl _

/-- STOP_CLOCK with a clock that stays on ends an operation that discards no error (R281). -/
theorem stopClock_times_out (h : Serving s) (hl : s.ctl.seq = .stopClock .s0) (hs : catcher s.ctl.stk = none)
    (ha : s.env.Answers (v :: answers) e) (hv : bitSet v bitClkEn = true)
    (hf : PollFails (bitMask bitClkEn) .clear answers) :
    ∃ t, Reaches s (complete .timeout (some .clkStop) t) ∧
      Performed s ([.read ReadReg.stat.offset v, .write WriteReg.strpcl.offset Config.strpclStop] ++ pollEvents answers)
        s.resp { s.ctrl with strpcl := Config.strpclStop } e t := by
  obtain ⟨rfl, ha⟩ := ha
  obtain ⟨t, hcall, hserving, hseq, hstk, _, ht⟩ := stopClock_waits h hl hv
  obtain ⟨u, hwait, hu⟩ := await_times_out hserving hseq (hstk ▸ hs) (ht.env ▸ ha) hf
  rw [ht.resp, ht.ctrl] at hu
  exact ⟨u, hcall.trans hwait, ht.trans hu⟩

/-- START_CLOCK writes STRPCL and waits for CLK_EN (R172). -/
theorem startClock_waits (h : Serving s) (hl : s.ctl.seq = .startClock .t0) :
    ∃ t, Reaches s t ∧ Serving t ∧ t.ctl.seq = .await (.a0 (bitMask bitClkEn) .set .clkStart) ∧
      t.ctl.stk = .startClock .t2 :: s.ctl.stk ∧
      Performed s [.write WriteReg.strpcl.offset Config.strpclStart] s.resp
        { s.ctrl with strpcl := Config.strpclStart } s.env t := by
  have hcall := run_startClock h hl
  have hwrite := performed_regWrite .strpcl Config.strpclStart s
  exact ⟨_, ⟨2, hcall⟩, serving_of_run h hcall h.busy, by simp, by simp, hwrite.setCtl _⟩

end

/-! ### The steps of EXECUTE before its second wait -/

section
variable {s : State}

theorem procStep_execute {l : ExecuteLabel} (hl : s.ctl.seq = .execute l) : procStep s = executeStep s l := by
  rw [procStep, hl]

/-- The events of E2: the data registers of a data phase (R282). -/
def State.setUpEvents (s : State) : List Event :=
  if s.data then
    [.write WriteReg.nob.offset (s.rq.blocks.setWidth 32), .write WriteReg.blklen.offset (s.rq.blksize.setWidth 32),
      .write WriteReg.resto.offset Config.restoMax]
  else []

/-- The controller's registers after E2. -/
def State.setUpCtrl (s : State) : CtrlRegs :=
  if s.data then
    { s.ctrl with nob := s.rq.blocks.setWidth 32, blklen := s.rq.blksize.setWidth 32, resto := Config.restoMax }
  else s.ctrl

/-- `FLAGS` after E2 and E3, from none: the data phase, its direction and the bus width (R280). -/
def State.setUpFlags (s : State) : Word :=
  orWhen s.w4 (if s.data then orWhen s.dir flagDataEn flagWrite else 0) flagSd4dat

/-- E2 and E3 set up the data phase that there is, and `FLAGS` (R280, R282). -/
theorem execute_sets_up (h : Serving s) (hc : s.ctl = { seq := .execute .e2, stk := [], busy := true })
    (hf : s.flags = 0) :
    ∃ t, Reaches s t ∧ t.ctl = { seq := .execute .e4, stk := [], busy := true } ∧ t.flags = s.setUpFlags ∧
      Performed s s.setUpEvents s.resp s.setUpCtrl s.env t := by
  have hl : s.ctl.seq = .execute .e2 := by rw [hc]
  cases hd : s.data with
  | false =>
    have he2 : procStep s = goto (.execute .e3) s :=
      (procStep_execute hl).trans (if_neg (Bool.eq_false_iff.mp hd))
    obtain ⟨run0, h1⟩ := run_serving_to (k := 1) h he2 h.busy
    have hrun := run0.trans ((run_serving h1).trans (congrArg (run 0) (procStep_execute rfl)))
    refine ⟨_, ⟨2, hrun⟩, by simp [executeStep, hc], ?_, ?_⟩
    · simp [executeStep, State.setUpFlags, hd, hf, State.w4]
    · rw [State.setUpEvents, State.setUpCtrl, hd]
      exact {}
  | true =>
    have he2 := (procStep_execute hl).trans (if_pos hd)
    obtain ⟨run0, h1⟩ := run_serving_to (k := 3) h he2 h.busy
    obtain ⟨run1, h2⟩ := run_serving_to (k := 2) h1 (procStep_execute rfl) h.busy
    obtain ⟨run2, h3⟩ := run_serving_to (k := 1) h2 (procStep_execute rfl) h.busy
    have hrun := run0.trans (run1.trans (run2.trans
      ((run_serving h3).trans (congrArg (run 0) (procStep_execute rfl)))))
    refine ⟨_, ⟨4, hrun⟩, by simp [executeStep, hc], ?_, ?_⟩
    · simp [executeStep, State.setUpFlags, hd, hf, State.w4, dataFlags, State.dir]
    · rw [State.setUpEvents, State.setUpCtrl, hd]
      exact {}

/-- What CMDAT receives when EXECUTE leaves these flags: they, the response format and the busy flag (R190 to R192). -/
def State.cmdat (s : State) (flags : Word) : Word :=
  flags ||| (rspFmt s.rtype).setWidth 32 ||| if s.busyf then 0x20 else 0

/-- The events of ISSUE's four writes, with the value of CMDAT. -/
def State.issueEvents (s : State) (cmdat : Word) : List Event :=
  [.write WriteReg.cmd.offset (s.cmdIdx.setWidth 32), .write WriteReg.argh.offset (argHigh s.rq.arg),
    .write WriteReg.argl.offset (argLow s.rq.arg), .write WriteReg.cmdat.offset cmdat]

/-- The controller's registers `c` after ISSUE's four writes. -/
def State.issueCtrl (s : State) (cmdat : Word) (c : CtrlRegs) : CtrlRegs :=
  { c with cmd := s.cmdIdx.setWidth 32, argh := argHigh s.rq.arg, argl := argLow s.rq.arg, cmdat := cmdat }

/-- What ISSUE writes is the latched request's. -/
theorem issue_congr {t : State} (h : t.rq = s.rq) :
    t.cmdat = s.cmdat ∧ t.issueEvents = s.issueEvents ∧ t.issueCtrl = s.issueCtrl := by
  unfold State.cmdat State.issueEvents State.issueCtrl State.rtype State.busyf State.cmdIdx
  rw [h]
  exact ⟨rfl, rfl, rfl⟩

/-- E4 calls ISSUE, which writes the command and calls START_CLOCK (R190). -/
theorem execute_issues (h : Serving s) (hc : s.ctl = { seq := .execute .e4, stk := [], busy := true }) :
    ∃ t, Reaches s t ∧ t.ctl = { seq := .startClock .t0, stk := [.issue .i7, .execute .e5], busy := true } ∧
      Performed s (s.issueEvents (s.cmdat s.flags)) s.resp (s.issueCtrl (s.cmdat s.flags) s.ctrl) s.env t := by
  have hcall : procStep s = call (.issue .i0) (.execute .e5) s := procStep_execute (by rw [hc])
  obtain ⟨run0, h1⟩ := run_serving_to (k := 7) h hcall h.busy
  have hflags : (issueToStartClock (call (.issue .i0) (.execute .e5) s)).flags = s.cmdat s.flags :=
    issueToStartClock_flags _
  refine ⟨_, ⟨8, run0.trans (run_issue h1 rfl)⟩, by simp [issueToStartClock, issueStep, hc], ?_⟩
  rw [← hflags]
  exact {}

/-- The events of EXECUTE from the stopped clock to the write that starts it (R280 steps 2 to 4). -/
def State.commandEvents (s : State) : List Event :=
  s.setUpEvents ++ s.issueEvents (s.cmdat s.setUpFlags) ++ [.write WriteReg.strpcl.offset Config.strpclStart]

/-- The controller's registers after these events. -/
def State.commandCtrl (s : State) : CtrlRegs :=
  { s.issueCtrl (s.cmdat s.setUpFlags) s.setUpCtrl with strpcl := Config.strpclStart }

/-- What EXECUTE writes is the latched request's, and the last write of STRPCL stays. -/
theorem command_congr {t : State} {x : Word} (hq : t.rq = s.rq) (hc : t.ctrl = { s.ctrl with strpcl := x }) :
    t.commandEvents = s.commandEvents ∧ t.commandCtrl = s.commandCtrl := by
  obtain ⟨hcmdat, hevents, hctrl⟩ := issue_congr hq
  unfold State.commandEvents State.commandCtrl
  rw [hcmdat, hevents, hctrl]
  unfold State.setUpEvents State.setUpFlags State.setUpCtrl State.data State.dir State.w4
  rw [hq, hc]
  refine ⟨rfl, ?_⟩
  split <;> rfl

/-- From the stopped clock EXECUTE comes to the wait for the clock to start. -/
theorem execute_starts_clock (h : Serving s) (hc : s.ctl = { seq := .execute .e2, stk := [], busy := true })
    (hf : s.flags = 0) :
    ∃ t, Reaches s t ∧ Serving t ∧ t.ctl.seq = .await (.a0 (bitMask bitClkEn) .set .clkStart) ∧
      t.ctl.stk = [.startClock .t2, .issue .i7, .execute .e5] ∧
      Performed s s.commandEvents s.resp s.commandCtrl s.env t := by
  obtain ⟨t, hsetup, hct, hflags, ht⟩ := execute_sets_up h hc hf
  have hst := hsetup.serving h (by rw [hct])
  obtain ⟨u, hissue, hcu, hu⟩ := execute_issues hst hct
  have hsu := hissue.serving hst (by rw [hcu])
  obtain ⟨v, hstart, hsv, hseq, hstk, hv⟩ := startClock_waits hsu (by rw [hcu])
  refine ⟨v, (hsetup.trans hissue).trans hstart, hsv, hseq, by rw [hstk, hcu], ?_⟩
  obtain ⟨hcmdat, hevents, hctrl⟩ := issue_congr ht.rq
  rw [hcmdat, hevents, hctrl, hflags, ht.resp, ht.ctrl, ht.env] at hu
  rw [hu.resp, hu.ctrl, hu.env] at hv
  exact (ht.trans hu).trans hv

end

/-! ### From acceptance to the command's end -/

/-- EXECUTE is accepted: the block serves it from its first label, with `CRC_SUPP` cleared (R110, R50). -/
structure Accepted (a : State) : Prop where
  serving : Serving a
  ctl : a.ctl = { seq := .execute .e0, stk := [], busy := true }
  crcSupp : a.done.crcSupp = false

/-- An idle block with a quiet host accepts every well-formed EXECUTE. -/
theorem exec_accepts {s : State} {i : Instr} (hb : s.ctl.busy = false) (hq : s.host = [])
    (hw : i.wellFormed s.port = true) (hi : i.start = .execute .e0) :
    exec i s = .next (accept (encode i) (.execute .e0) s) ∧ Accepted (accept (encode i) (.execute .e0) s) := by
  rw [← hi]
  exact ⟨exec_idle hb hw, ⟨rfl, hq, accept_seqInv s (decodeOfEncode i)⟩, by rw [hi]; rfl, rfl⟩

section
variable {a : State} {v : Word} {stop start ended fails : List Word} {e e' e'' : Env}

/-- EXECUTE first calls STOP_CLOCK, with no flag set (R280). -/
theorem execute_calls_stopClock (h : Accepted a) :
    ∃ t, Reaches a t ∧ Serving t ∧ t.ctl = { seq := .stopClock .s0, stk := [.execute .e2], busy := true } ∧
      t.flags = 0 ∧ Performed a [] a.resp a.ctrl a.env t := by
  obtain ⟨hs, hc, hcrc⟩ := h
  obtain ⟨run0, h1⟩ := run_serving_to (k := 1) hs (procStep_execute (l := .e0) (by rw [hc])) hs.busy
  obtain ⟨run1, h2⟩ := run_serving_to (k := 0) h1 (procStep_execute rfl) hs.busy
  refine ⟨_, ⟨2, run0.trans run1⟩, h2, by simp [executeStep, hc], rfl, { done := ?_ }⟩
  show ({ a.done with crcSupp := false } : Completion) = a.done
  rw [← hcrc]

/-- A stopped clock lets EXECUTE go on to E2. -/
theorem execute_stops_clock (h : Accepted a) (ha : a.env.Answers stop e) (hok : StopOk stop) :
    ∃ x t, Reaches a t ∧ t.ctl = { seq := .execute .e2, stk := [], busy := true } ∧ t.flags = 0 ∧
      Performed a (stopEvents stop) a.resp { a.ctrl with strpcl := x } e t := by
  obtain ⟨t, hcall, hs, hct, hflags, ht⟩ := execute_calls_stopClock h
  obtain ⟨x, u, hstop, hcu, hflags', hu⟩ := stopClock_returns hs (by rw [hct]) (by rw [hct]) (ht.env ▸ ha) hok
  rw [ht.resp, ht.ctrl] at hu
  exact ⟨x, u, hcall.trans hstop, hcu, hflags'.trans hflags, ht.trans hu⟩

/-- A clock that stays on ends EXECUTE at step 1 (R281). -/
theorem execute_stop_times_out (h : Accepted a) (ha : a.env.Answers (v :: fails) e)
    (hv : bitSet v bitClkEn = true) (hf : PollFails (bitMask bitClkEn) .clear fails) :
    ∃ t, Reaches a (complete .timeout (some .clkStop) t) ∧
      Performed a ([.read ReadReg.stat.offset v, .write WriteReg.strpcl.offset Config.strpclStop] ++ pollEvents fails)
        a.resp { a.ctrl with strpcl := Config.strpclStop } e t := by
  obtain ⟨t, hcall, hs, hct, _, ht⟩ := execute_calls_stopClock h
  obtain ⟨u, hstop, hu⟩ := stopClock_times_out hs (by rw [hct]) (by rw [hct]; rfl) (ht.env ▸ ha) hv hf
  rw [ht.resp, ht.ctrl] at hu
  exact ⟨u, hcall.trans hstop, ht.trans hu⟩

/-- From acceptance to the wait for the clock to start. -/
theorem execute_waits_start (h : Accepted a) (ha : a.env.Answers stop e) (hok : StopOk stop) :
    ∃ t, Reaches a t ∧ Serving t ∧ t.ctl.seq = .await (.a0 (bitMask bitClkEn) .set .clkStart) ∧
      t.ctl.stk = [.startClock .t2, .issue .i7, .execute .e5] ∧
      Performed a (stopEvents stop ++ a.commandEvents) a.resp a.commandCtrl e t := by
  obtain ⟨x, t, hstop, hct, hflags, ht⟩ := execute_stops_clock h ha hok
  have hs := hstop.serving h.serving (by rw [hct])
  obtain ⟨u, hcommand, hsu, hseq, hstk, hu⟩ := execute_starts_clock hs hct hflags
  obtain ⟨hevents, hctrl⟩ := command_congr ht.rq ht.ctrl
  rw [hevents, hctrl, ht.resp, ht.env] at hu
  exact ⟨u, hstop.trans hcommand, hsu, hseq, hstk, ht.trans hu⟩

/-- A clock that starts lets EXECUTE go on to its third wait (R280). -/
theorem execute_starts (h : Accepted a) (ha : a.env.Answers stop e) (hok : StopOk stop)
    (ha' : e.Answers start e') (hstart : PollOk (bitMask bitClkEn) .set start) :
    ∃ t, Reaches a t ∧ t.ctl = { seq := .execute .e5, stk := [], busy := true } ∧
      Performed a (stopEvents stop ++ a.commandEvents ++ pollEvents start) a.resp a.commandCtrl e' t := by
  obtain ⟨t, hreach, hs, hseq, hstk, ht⟩ := execute_waits_start h ha hok
  obtain ⟨u, hwait, hcu, _, hu⟩ := await_returns hs hseq hstk (ht.env ▸ ha') hstart
  rw [ht.resp, ht.ctrl] at hu
  have hreach := (hreach.trans hwait).returns h.serving hcu (procStep_startClock (l := .t2) (by rw [hcu]))
  have hreach := hreach.returns h.serving rfl rfl
  exact ⟨_, hreach, rfl, (ht.trans hu).setCtl _⟩

/-- A clock that does not start ends EXECUTE (R284). -/
theorem execute_start_times_out (h : Accepted a) (ha : a.env.Answers stop e) (hok : StopOk stop)
    (ha' : e.Answers fails e') (hf : PollFails (bitMask bitClkEn) .set fails) :
    ∃ t, Reaches a (complete .timeout (some .clkStart) t) ∧
      Performed a (stopEvents stop ++ a.commandEvents ++ pollEvents fails) a.resp a.commandCtrl e' t := by
  obtain ⟨t, hreach, hs, hseq, hstk, ht⟩ := execute_waits_start h ha hok
  obtain ⟨u, hwait, hu⟩ := await_times_out hs hseq (by rw [hstk]; rfl) (ht.env ▸ ha') hf
  rw [ht.resp, ht.ctrl] at hu
  exact ⟨u, hreach.trans hwait, ht.trans hu⟩

/-- From acceptance to the wait for the command to end. -/
theorem execute_waits_end (h : Accepted a) (ha : a.env.Answers stop e) (hok : StopOk stop)
    (ha' : e.Answers start e') (hstart : PollOk (bitMask bitClkEn) .set start) :
    ∃ t, Reaches a t ∧ Serving t ∧ t.ctl.seq = .await (.a0 (bitMask bitEndCmdRes) .set .cmdEnd) ∧
      t.ctl.stk = [.execute .e6] ∧
      Performed a (stopEvents stop ++ a.commandEvents ++ pollEvents start) a.resp a.commandCtrl e' t := by
  obtain ⟨t, hreach, hct, ht⟩ := execute_starts h ha hok ha' hstart
  have hb : t.ctl.busy = true := by rw [hct]
  have hcall := hreach.step h.serving hb (procStep_execute (l := .e5) (by rw [hct]))
  exact ⟨_, hcall, hcall.serving h.serving hb, rfl, by simp [executeStep, hct], ht.setCtl _⟩

/-- A command that ends lets EXECUTE go on to the response (R280). -/
theorem execute_ends_command (h : Accepted a) (ha : a.env.Answers stop e) (hok : StopOk stop)
    (ha' : e.Answers start e') (hstart : PollOk (bitMask bitClkEn) .set start) (ha'' : e'.Answers ended e'')
    (hended : PollOk (bitMask bitEndCmdRes) .set ended) :
    ∃ t, Reaches a t ∧ t.ctl = { seq := .execute .e6, stk := [], busy := true } ∧
      Performed a (stopEvents stop ++ a.commandEvents ++ pollEvents start ++ pollEvents ended) a.resp a.commandCtrl
        e'' t := by
  obtain ⟨t, hreach, hs, hseq, hstk, ht⟩ := execute_waits_end h ha hok ha' hstart
  obtain ⟨u, hwait, hcu, _, hu⟩ := await_returns hs hseq hstk (ht.env ▸ ha'') hended
  rw [ht.resp, ht.ctrl] at hu
  exact ⟨u, hreach.trans hwait, hcu, ht.trans hu⟩

/-- A command that does not end ends EXECUTE (R284). -/
theorem execute_end_times_out (h : Accepted a) (ha : a.env.Answers stop e) (hok : StopOk stop)
    (ha' : e.Answers start e') (hstart : PollOk (bitMask bitClkEn) .set start) (ha'' : e'.Answers fails e'')
    (hf : PollFails (bitMask bitEndCmdRes) .set fails) :
    ∃ t, Reaches a (complete .timeout (some .cmdEnd) t) ∧
      Performed a (stopEvents stop ++ a.commandEvents ++ pollEvents start ++ pollEvents fails) a.resp a.commandCtrl
        e'' t := by
  obtain ⟨t, hreach, hs, hseq, hstk, ht⟩ := execute_waits_end h ha hok ha' hstart
  obtain ⟨u, hwait, hu⟩ := await_times_out hs hseq (by rw [hstk]; rfl) (ht.env ▸ ha'') hf
  rw [ht.resp, ht.ctrl] at hu
  exact ⟨u, hreach.trans hwait, ht.trans hu⟩

end

/-! ### The waits that are never answered -/

/-- Settles O29: the first wait is STOP_CLOCK's, and nothing precedes it but its read and its write. -/
theorem stuckClockEndsExecute : Obligations.StuckClockEndsExecute := by
  intro s i v answers rest hb hq hw hi hstat hv hf
  obtain ⟨hexec, ha⟩ := exec_accepts hb hq hw hi
  obtain ⟨t, ⟨k, hrun⟩, ht⟩ := execute_stop_times_out ha (answers_of_pending hstat) hv (mask_clkEn ▸ hf)
  refine ⟨_, k, _, hexec, hrun, rfl, ?_, ?_, ht.ctrl, ht.env, ht.resp, ht.mem⟩
  · simp [ht.done]
  · simp [ht.trace, ReadReg.offset, WriteReg.offset, Config.strpclStop]

/-- Settles O30: the second wait is START_CLOCK's and the third EXECUTE's own; each names its site. -/
theorem execTimeoutsNameTheirWait : Obligations.ExecTimeoutsNameTheirWait := by
  intro s i stop start fails rest hb hq hw hi hstop
  obtain ⟨hexec, ha⟩ := exec_accepts hb hq hw hi
  rw [← mask_clkEn, ← mask_endCmdRes]
  constructor
  · intro hstat hf
    rw [List.append_assoc] at hstat
    obtain ⟨t, ⟨k, hrun⟩, ht⟩ :=
      execute_start_times_out ha (answers_of_pending hstat) hstop (answers_of_pending rfl) hf
    exact ⟨_, k, _, hexec, hrun, rfl, by simp [ht.done], ht.env, ht.resp, ht.mem⟩
  · intro hstat hstart hf
    rw [List.append_assoc, List.append_assoc] at hstat
    obtain ⟨t, ⟨k, hrun⟩, ht⟩ :=
      execute_end_times_out ha (answers_of_pending hstat) hstop (answers_of_pending rfl) hstart (answers_of_pending rfl) hf
    exact ⟨_, k, _, hexec, hrun, rfl, by simp [ht.done], ht.env, ht.resp, ht.mem⟩

end Sys2Proof.Machine
end

section
/-! PROOFS. EXECUTE from its acceptance through the response, and EXEC whole (spec/45_host_adapter.md R280, R283, R286). -/

namespace Sys2Proof.Machine

/-! ### DECODE, called -/

section
variable {s a : State} {status h0 h1 h2 h3 h4 h5 h6 h7 h8 : Word} {stop start ended stat res : List Word}

/-- What a STAT read that a pending answer meets performs. -/
theorem performed_readStat_of_pending (h : s.env.stat = status :: stat) :
    Performed s [.read 0x04 status] s.resp s.ctrl { s.env with stat := stat } (readStat s) := by
  rw [← consume_stat h, ← readValue_stat h]
  exact performed_readStat s

/-- What the RES reads and the assembly of the words perform. -/
theorem performed_decoding (s : State) (l : DecodeLabel) (asm : Reassembly) (resp : Response) (res : List Word)
    (reads : List Event) :
    Performed s reads resp s.ctrl { s.env with res := res } (s.decoding l asm resp res reads.reverse) := {}

/-- DECODE with an answered command makes its nine RES reads and comes to the CRC test (R214). -/
theorem decode_reads (h : Serving s) (hl : s.ctl.seq = .decode .dc0) (hstat : s.env.stat = status :: stat)
    (hres : s.env.res = [h0, h1, h2, h3, h4, h5, h6, h7, h8] ++ res) (answered : status.getLsbD 1 = false) :
    ∃ t, Reaches s t ∧ t.ctl = { s.ctl with seq := .decode .dc9 } ∧ t.snap = status ∧
      Performed s ([.read 0x04 status] ++ [h0, h1, h2, h3, h4, h5, h6, h7, h8].map (Event.read 0x3C))
        (reassembled h0 h1 h2 h3 h4 h5 h6 h7 h8) s.ctrl { s.env with stat := stat, res := res } t := by
  have hs : Serving (readStat s) := serving_congr h rfl rfl h.quiet
  have hread := performed_readStat_of_pending hstat
  have entry : goto (.decode .dc2) (readStat s) =
      (readStat s).decoding .dc2 s.asm s.resp ([h0, h1, h2, h3, h4, h5, h6, h7, h8] ++ res) [] := by
    rw [← hres, show s.env.res = (readStat s).env.res by rw [hread.env]]
    rfl
  have hrun := run_decode_status 22 h hl (by rwa [readValue_stat hstat])
  rw [entry, run_reassembly 0 hs hl, run_zero] at hrun
  have hreads := performed_decoding (readStat s) .dc9 ⟨lowHalf h8, lowHalf h7, lowHalf h8, 3⟩
    (reassembled h0 h1 h2 h3 h4 h5 h6 h7 h8) res ([h0, h1, h2, h3, h4, h5, h6, h7, h8].map (Event.read 0x3C))
  rw [hread.ctrl, hread.env] at hreads
  exact ⟨_, ⟨_, hrun⟩, by simp, readValue_stat hstat, hread.trans hreads⟩

/-- DECODE with a response that has no error that counts resumes EXECUTE (R215). -/
theorem decode_returns (h : Serving s) (hc : s.ctl = { seq := .decode .dc0, stk := [.execute .e7], busy := true })
    (hstat : s.env.stat = status :: stat) (hres : s.env.res = [h0, h1, h2, h3, h4, h5, h6, h7, h8] ++ res)
    (answered : status.getLsbD 1 = false) (passes : status.getLsbD 5 = false ∨ s.crc = false) :
    ∃ t, Reaches s t ∧ t.ctl = { seq := .execute .e7, stk := [], busy := true } ∧
      Performed s ([.read 0x04 status] ++ [h0, h1, h2, h3, h4, h5, h6, h7, h8].map (Event.read 0x3C))
        (reassembled h0 h1 h2 h3 h4 h5 h6 h7 h8) s.ctrl { s.env with stat := stat, res := res } t := by
  obtain ⟨t, hreach, hct, hsnap, ht⟩ := decode_reads h (by rw [hc]) hstat hres answered
  have hs := hreach.serving h (by rw [hct, hc])
  have hcrc : ¬ t.crcFails := by
    rintro ⟨hbit, hchecked⟩
    rw [hsnap] at hbit
    rw [ht.rq] at hchecked
    rcases passes with hok | hok
    · exact absurd (hok.symm.trans hbit) nofun
    · exact absurd (hok.symm.trans hchecked) nofun
  have hcheck := run_crc_passes hs (by rw [hct]) hcrc
  rw [ret_to_caller hs.busy (by rw [hct, hc])] at hcheck
  exact ⟨_, hreach.trans ⟨2, hcheck⟩, rfl, ht.setCtl _⟩

/-- The events of EXECUTE from acceptance through the response (R280 steps 1 to 6). -/
def State.commandTrace (a : State) (stop start ended : List Word) (status : Word) (halves : List Word) : List Event :=
  stopEvents stop ++ a.commandEvents ++ pollEvents start ++ pollEvents ended ++
    ([.read 0x04 status] ++ halves.map (Event.read 0x3C))

/-- With every wait answered and a response that has no error that counts EXECUTE comes to its data phase. -/
theorem execute_responds (h : Accepted a) (hstat : a.env.stat = stop ++ start ++ ended ++ status :: stat)
    (hres : a.env.res = [h0, h1, h2, h3, h4, h5, h6, h7, h8] ++ res) (hstop : StopOk stop)
    (hstart : PollOk 0x100 .set start) (hended : PollOk 0x2000 .set ended) (answered : status.getLsbD 1 = false)
    (passes : status.getLsbD 5 = false ∨ a.crc = false) :
    ∃ t, Reaches a t ∧ t.ctl = { seq := .execute .e7, stk := [], busy := true } ∧
      Performed a (a.commandTrace stop start ended status [h0, h1, h2, h3, h4, h5, h6, h7, h8])
        (reassembled h0 h1 h2 h3 h4 h5 h6 h7 h8) a.commandCtrl { a.env with stat := stat, res := res } t := by
  rw [← mask_clkEn] at hstart
  rw [← mask_endCmdRes] at hended
  rw [List.append_assoc, List.append_assoc] at hstat
  obtain ⟨t, hreach, hct, ht⟩ := execute_ends_command h (answers_of_pending hstat) hstop (answers_of_pending rfl) hstart
    (answers_of_pending rfl) hended
  have hb : t.ctl.busy = true := by rw [hct]
  have hcall := hreach.step h.serving hb (procStep_execute (l := .e6) (by rw [hct]))
  have hcalled : Performed a _ a.resp a.commandCtrl { a.env with stat := status :: stat } (executeStep t .e6) :=
    ht.setCtl _
  obtain ⟨u, hdecode, hcu, hu⟩ := decode_returns (hcall.serving h.serving hb) (by simp [executeStep, hct])
    (congrArg Env.stat hcalled.env) ((congrArg Env.res hcalled.env).trans hres) answered
    (by rwa [State.crc, hcalled.rq])
  rw [hcalled.ctrl, hcalled.env] at hu
  exact ⟨u, hcall.trans hdecode, hcu, hcalled.trans hu⟩

end

/-! ### EXEC whole -/

/-- Without a data phase EXECUTE completes with Ok after the response (R286). -/
theorem execute_completes {a t : State} (h : Serving a) (hreach : Reaches a t)
    (hc : t.ctl = { seq := .execute .e7, stk := [], busy := true }) (hd : t.data = false) : Reaches a (complete .ok none t) := by
  have he7 : procStep t = goto (.execute .e8) t :=
    (procStep_execute (l := .e7) (by rw [hc])).trans (if_neg (Bool.eq_false_iff.mp hd))
  have he8 := hreach.step h (by rw [hc]) he7
  have hret := he8.step h (by simp [hc]) (ret_goto (.execute .e8) t)
  rwa [ret, hc] at hret

/-- What EXEC writes to CMDAT (R190 to R192). -/
theorem setUpFlags_exec (s : State) (cmd : BitVec 6) (rt : RType) (crc busyf w4 : Bool) :
    (accept (encode (.exec cmd rt crc busyf w4)) (.execute .e0) s).setUpFlags = if w4 then 0x100 else 0 := by
  cases w4 <;> simp [State.setUpFlags, State.data, State.w4, encode, orWhen, flagSd4dat, bitMask]

/-- The command EXEC issues. -/
theorem commandEvents_exec (s : State) (cmd : BitVec 6) (rt : RType) (crc busyf w4 : Bool) :
    (accept (encode (.exec cmd rt crc busyf w4)) (.execute .e0) s).commandEvents =
      [.write 0x30 (cmd.setWidth 32), .write 0x34 ((s.port.arg.extractLsb' 16 16).setWidth 32),
        .write 0x38 ((s.port.arg.extractLsb' 0 16).setWidth 32),
        .write 0x10 ((if w4 then 0x100 else 0) ||| (rspFmt rt).setWidth 32 ||| if busyf then 0x20 else 0),
        .write 0x00 0x2] := by
  rw [State.commandEvents, setUpFlags_exec]
  simp [State.setUpEvents, State.issueEvents, State.cmdat, State.data, State.cmdIdx, State.rtype, State.busyf, encode,
    WriteReg.offset, argHigh, argLow, Config.strpclStart]

/-- Settles O26: the waits and the response bring EXECUTE to E7, where a command without data completes. -/
theorem execSucceeds : Obligations.ExecSucceeds := by
  intro s cmd rt crc busyf w4 stop start ended rest status h0 h1 h2 h3 h4 h5 h6 h7 h8 res hb hq hstat hres hstop hstart
    hended answered passes
  obtain ⟨hexec, ha⟩ := exec_accepts (i := .exec cmd rt crc busyf w4) hb hq rfl rfl
  obtain ⟨t, hreach, hct, ht⟩ := execute_responds ha hstat hres hstop hstart hended answered
    (by simpa [State.crc, encode] using passes)
  obtain ⟨k, hrun⟩ := execute_completes ha.serving hreach hct (data_of_exec (congrArg Latched.req ht.rq))
  refine ⟨_, k, _, hexec, hrun, rfl, by simp [ht.done], ?_, ?_, ht.env, ht.mem⟩
  · simp [ht.resp, reassembled, responseWord_lowHalf]
  · simp [ht.trace, State.commandTrace, commandEvents_exec]

end Sys2Proof.Machine
end

section
/-! PROOFS. EXEC in any environment: it ends, and leaves the data path alone (spec/45_host_adapter.md R286, R290). -/

namespace Sys2Proof.Machine

/-! ### What every step of EXEC keeps -/

/-- What the steps of a serving block keep holds after any run with a quiet host. -/
theorem run_induction {P : State → Prop} (hstep : ∀ u, Serving u → P u → P (procStep u)) {k : Nat} {s t : State}
    (hq : s.host = []) (hs : seqInv s = true) (h : P s) (hrun : run k s = .next t) : P t := by
  induction k generalizing s with
  | zero => exact Host.Outcome.next.inj hrun ▸ h
  | succ k ih =>
    obtain ⟨u, hu, hrun⟩ := exists_step_of_run hrun
    refine ih (step_quiet hq hu) (sequencingInvariantKept s u hs hu) ?_ hrun
    have hadvance : advance s = .next u := by simpa [step, machineStep, hq] using hu
    obtain ⟨_, rfl⟩ | ⟨hb, _, _, _, rfl⟩ := advance_cases hadvance
    · exact h
    · exact hstep s ⟨hb, hq, hs⟩ h

/-- From the acceptance of EXEC on, the latched request and all that no command touches stay (R43, R286). -/
theorem exec_run_keeps {a t : State} {cmd : BitVec 6} {rt : RType} {crc busyf w4 : Bool} (h : Serving a)
    (hw : a.rq.req = encode (.exec cmd rt crc busyf w4)) (hreach : Reaches a t) :
    t.rq = a.rq ∧ t.besideCommand = a.besideCommand := by
  obtain ⟨k, hrun⟩ := hreach
  refine run_induction (P := fun u => u.rq = a.rq ∧ u.besideCommand = a.besideCommand) ?_ h.quiet h.inv ⟨rfl, rfl⟩ hrun
  intro u hu ⟨hrq, hbeside⟩
  have hw : u.rq.req = encode (.exec cmd rt crc busyf w4) := by rw [hrq, hw]
  obtain ⟨_, i, hd, hr, _⟩ := own_of_seqInv hu.busy hu.inv
  obtain rfl : i = .exec cmd rt crc busyf w4 := by
    rw [hw, decodeOfEncode] at hd
    exact (Except.ok.inj hd).symm
  exact ⟨(procStep_keeps u).1.trans hrq, (procStep_besideCommand hr (data_of_exec hw)).trans hbeside⟩

/-! ### The ends of the waits -/

section
variable (e : Env) (mask : Word) (pol : Polarity)

/-- Every environment answers a poll one way or the other (R152). -/
theorem exists_poll_answers :
    ∃ answers e', e.Answers answers e' ∧ (PollOk mask pol answers ∨ PollFails mask pol answers) :=
  exists_answers mask pol Config.pollMax e

/-- Every environment lets STOP_CLOCK succeed or keeps the clock on (R170). -/
theorem exists_stop_answers :
    ∃ answers e', e.Answers answers e' ∧
      (StopOk answers ∨ ∃ v fails, answers = v :: fails ∧ bitSet v bitClkEn = true ∧
        PollFails (bitMask bitClkEn) .clear fails) := by
  cases hv : bitSet e.nextStat bitClkEn with
  | false => exact ⟨[e.nextStat], _, ⟨rfl, rfl⟩, .inl (by simp [StopOk, hv])⟩
  | true =>
    obtain ⟨answers, e', ha, hok | hf⟩ := exists_poll_answers (e.consume .stat) (bitMask bitClkEn) .clear
    · exact ⟨e.nextStat :: answers, e', ⟨rfl, ha⟩, .inl (by simpa [StopOk, hv] using hok)⟩
    · exact ⟨e.nextStat :: answers, e', ⟨rfl, ha⟩, .inr ⟨_, _, rfl, hv, hf⟩⟩

end

/-! ### The end of DECODE -/

section
variable {s : State}

/-- One response word is read and assembled, whatever the reads return. -/
theorem decode_word (h : Serving s) (hl : s.ctl.seq = .decode .dc4) :
    ∃ t, Reaches s t ∧ t.ctl = { s.ctl with seq := .decode .dc8 } ∧ t.asm.ri = s.asm.ri := by
  obtain ⟨run4, h5⟩ := run_serving_to (k := 3) h (procStep_decode hl) h.busy
  obtain ⟨run5, h6⟩ := run_serving_to (k := 2) h5 (procStep_decode rfl) h.busy
  obtain ⟨run6, h7⟩ := run_serving_to (k := 1) h6 (procStep_decode rfl) h.busy
  obtain ⟨run7, _⟩ := run_serving_to (k := 0) h7 (procStep_decode rfl) h.busy
  exact ⟨_, ⟨4, run4.trans (run5.trans (run6.trans run7))⟩, rfl, rfl⟩

/-- The remaining response words are read, and the CRC test is reached. -/
theorem decode_words {n : Nat} (h : Serving s) (hl : s.ctl.seq = .decode .dc4) (hn : s.asm.ri.toNat + n = 3) :
    ∃ t, Reaches s t ∧ t.ctl = { s.ctl with seq := .decode .dc9 } := by
  induction n generalizing s with
  | zero =>
    obtain ⟨t, hword, hct, hri⟩ := decode_word h hl
    have hlast : ¬ t.asm.ri < 3 := by rw [hri]; bv_omega
    have hstep := (procStep_decode (s := t) (l := .dc8) (by rw [hct])).trans (if_neg hlast)
    exact ⟨_, hword.step h (by rw [hct, h.busy]) hstep, by simp [hct]⟩
  | succ n ih =>
    obtain ⟨t, hword, hct, hri⟩ := decode_word h hl
    have hnext : t.asm.ri < 3 := by rw [hri]; bv_omega
    have hstep := (procStep_decode (s := t) (l := .dc8) (by rw [hct])).trans (if_pos hnext)
    have hreach := hword.step h (by rw [hct, h.busy]) hstep
    have hcount : (t.asm.ri + 1).toNat + n = 3 := by rw [hri]; bv_omega
    obtain ⟨u, hwords, hcu⟩ := ih (hreach.serving h (by simp [hct, h.busy])) rfl hcount
    exact ⟨u, hreach.trans hwords, by simp [hcu, hct]⟩

/-- How EXEC ends: the record that its last step leaves (R286). -/
def State.ExecEnded (t : State) : Prop :=
  t.ctl = { seq := .idle, stk := [], busy := false } ∧
    (t.done.result = .ok ∨ t.done.result = .timeout ∨ t.done.result = .responseCrcMismatch)

/-- DECODE resumes EXECUTE or ends it, in any environment (R210, R215, R216). -/
theorem decode_ends (h : Serving s) (hl : s.ctl.seq = .decode .dc0) :
    ∃ t, Reaches s t ∧ (t.ctl = { seq := .execute .e7, stk := [], busy := true } ∨ t.ExecEnded) := by
  have hstk := stk_of_decode h hl
  cases hv : bitSet (readValue .stat s) bitTimeOutResponse with
  | true =>
    obtain ⟨run0, h1⟩ := run_serving_to (k := 1) h (procStep_decode hl) h.busy
    have hdc1 : decodeStep (decodeStep s .dc0) .dc1 = raise (.timeout .respTimeout) (decodeStep s .dc0) := if_pos hv
    rw [raise_of_uncaught _ (by simp [decodeStep, hstk, catcher, discards])] at hdc1
    rw [run_serving h1, procStep_decode rfl, hdc1] at run0
    exact ⟨_, ⟨2, run0⟩, .inr ⟨rfl, .inr (.inl rfl)⟩⟩
  | false =>
    have hs : Serving (readStat s) := serving_congr h rfl rfl h.quiet
    have hrun := run_decode_status 0 h hl hv
    obtain ⟨run2, h3⟩ := run_serving_to (k := 1) (serving_of_run h hrun h.busy) (procStep_decode (l := .dc2) rfl) h.busy
    obtain ⟨run3, h4⟩ := run_serving_to (k := 0) h3 (procStep_decode (l := .dc3) rfl) h.busy
    obtain ⟨t, hwords, hct⟩ := decode_words (n := 3) h4 rfl rfl
    have hreach := (Reaches.trans ⟨2, hrun⟩ ⟨2, run2.trans run3⟩).trans hwords
    have ht := hreach.serving h (by simp [hct, decodeStep, h.busy])
    obtain ⟨reported, suppressed, passed⟩ := crcRuleWithSuppression t ht (by rw [hct])
    by_cases hfails : t.snap.getLsbD 5 = true ∧ t.rq.req.getLsbD 11 = true
    · by_cases hsupp : t.rtype = .long ∧ t.resp.w0.getLsbD 31 = true
      · obtain ⟨u, hrun, hcu, _⟩ := suppressed ⟨hfails, hsupp⟩
        exact ⟨u, hreach.trans ⟨2, hrun⟩, .inl hcu⟩
      · obtain ⟨u, hrun, hcu, hdone, _⟩ := reported ⟨hfails, hsupp⟩
        exact ⟨u, hreach.trans ⟨3, hrun⟩, .inr ⟨hcu, .inr (.inr (by rw [hdone]))⟩⟩
    · obtain ⟨u, hrun, hcu, _⟩ := passed hfails
      exact ⟨u, hreach.trans ⟨2, hrun⟩, .inl hcu⟩

end

/-! ### The end of EXEC -/

/-- EXEC ends in any environment. -/
theorem exec_ends {a : State} {cmd : BitVec 6} {rt : RType} {crc busyf w4 : Bool} (h : Accepted a)
    (hw : a.rq.req = encode (.exec cmd rt crc busyf w4)) : ∃ t, Reaches a t ∧ t.ExecEnded := by
  obtain ⟨stop, e, ha, hstop | ⟨v, fails, rfl, hv, hfails⟩⟩ := exists_stop_answers a.env
  case inr =>
    obtain ⟨t, hreach, _⟩ := execute_stop_times_out h ha hv hfails
    exact ⟨_, hreach, rfl, .inr (.inl rfl)⟩
  obtain ⟨start, e', ha', hstart | hfails⟩ := exists_poll_answers e (bitMask bitClkEn) .set
  case inr =>
    obtain ⟨t, hreach, _⟩ := execute_start_times_out h ha hstop ha' hfails
    exact ⟨_, hreach, rfl, .inr (.inl rfl)⟩
  obtain ⟨ended, e'', ha'', hended | hfails⟩ := exists_poll_answers e' (bitMask bitEndCmdRes) .set
  case inr =>
    obtain ⟨t, hreach, _⟩ := execute_end_times_out h ha hstop ha' hstart ha'' hfails
    exact ⟨_, hreach, rfl, .inr (.inl rfl)⟩
  obtain ⟨t, hreach, hct, _⟩ := execute_ends_command h ha hstop ha' hstart ha'' hended
  have hcall := hreach.step h.serving (by rw [hct]) (procStep_execute (l := .e6) (by rw [hct]))
  obtain ⟨u, hdecode, hcu | hended⟩ := decode_ends (hcall.serving h.serving (by simp [executeStep, hct])) rfl
  · have hreach := hcall.trans hdecode
    have hrq := (exec_run_keeps h.serving hw hreach).1
    exact ⟨_, execute_completes h.serving hreach hcu (data_of_exec (hrq ▸ hw)), rfl, .inl rfl⟩
  · exact ⟨u, hcall.trans hdecode, hended⟩

/-- Settles O25: each wait is answered or times out, DECODE resumes EXECUTE or raises, and what EXEC leaves alone stays as
at its acceptance. -/
theorem execCompletesInEveryEnvironment : Obligations.ExecCompletesInEveryEnvironment := by
  intro s cmd rt crc busyf w4 hb hq
  obtain ⟨hexec, ha⟩ := exec_accepts (i := .exec cmd rt crc busyf w4) hb hq rfl rfl
  obtain ⟨t, hreach, hct, hresult⟩ := exec_ends ha rfl
  have hbeside := (exec_run_keeps ha.serving rfl hreach).2
  obtain ⟨k, hrun⟩ := hreach
  simp only [State.besideCommand, State.systemPart, State.dataPart, Prod.mk.injEq, SystemPart.mk.injEq,
    DataPart.mk.injEq] at hbeside
  obtain ⟨⟨_, _, hinst, _⟩, hmem, _, hrx, htx, hnob, hblklen, hresto, hprtbuf⟩ := hbeside
  exact ⟨_, k, t, hexec, hrun, hct, hresult, hinst, hmem, hrx, htx, hnob, hblklen, hresto, hprtbuf⟩

end Sys2Proof.Machine
end

section
/-! PROOFS. The loops of the pumps to their end, and the waits after them (spec/44_data_pump.md R241 to R249). -/

namespace Sys2Proof.Machine

/-! ### What a pump makes of the state -/

/-- From `s` to `t` a pump performed these events, oldest first, and they left these controller registers, this
environment and this memory; the completion record is as it was. -/
structure Pumped (s : State) (events : List Event) (ctrl : CtrlRegs) (e : Env) (m : Memory) (t : State) : Prop where
  done : t.done = s.done := by rfl
  ctrl : t.ctrl = ctrl := by rfl
  env : t.env = e := by rfl
  mem : t.mem = m := by rfl
  trace : t.trace = events.reverse ++ s.trace := by rfl

theorem Pumped.trans {s t u : State} {ev ev' : List Event} {c c' : CtrlRegs} {e e' : Env} {m m' : Memory}
    (h : Pumped s ev c e m t) (h' : Pumped t ev' c' e' m' u) : Pumped s (ev ++ ev') c' e' m' u where
  done := h'.done.trans h.done
  ctrl := h'.ctrl
  env := h'.env
  mem := h'.mem
  trace := by rw [h'.trace, h.trace, List.reverse_append, List.append_assoc]

/-- The STAT read of an iteration, which a pending answer meets. -/
theorem pumped_readStat {s : State} {v : Word} {stat : List Word} (h : s.env.stat = v :: stat) :
    Pumped s [.read 0x04 v] s.ctrl { s.env with stat := stat } s.mem (readStat s) := by
  rw [readStat_eq_polled h]
  exact {}

/-! ### Runs of bytes -/

/-- The bytes of two adjoining stores. -/
theorem store_append (m : Memory) (a : Word) (bs cs : List Byte) :
    m.store a (bs ++ cs) = (m.store a bs).store (a + BitVec.ofNat 32 bs.length) cs := by
  induction bs generalizing m a with
  | nil => simp [Memory.store]
  | cons b bs ih =>
    have h : a + 1 + BitVec.ofNat 32 bs.length = a + BitVec.ofNat 32 (bs.length + 1) := by
      apply BitVec.eq_of_toNat_eq
      simp
      omega
    rw [List.cons_append, Memory.store, ih, h, Memory.store, List.length_cons]

/-- An iteration with bytes left and no error goes on with what its snapshot leaves. -/
theorem pumpOk_cons {ready n : Nat} {v : Word} {stat : List Word} :
    pumpOk ready n (v :: stat) = true ↔
      n ≠ 0 ∧ hasError v = false ∧ pumpOk ready (if bitSet v ready then n - min n 32 else n) stat = true := by
  simp [pumpOk, Config.fifoDepth, and_assoc]

/-- The cursor after a chunk. -/
theorem cursor_after_chunk (cur : Word) {n : Nat} {rem : Word} (hn : n = min rem.toNat 32) :
    cur + chunkSize rem = cur + BitVec.ofNat 32 n := by
  rw [hn, ← chunkSize_toNat, BitVec.ofNat_toNat, BitVec.setWidth_eq]

/-- A register that holds a nonzero count is not zero. -/
theorem rem_ne_zero {n : Nat} {rem : Word} (hn : n = rem.toNat) (hne : n ≠ 0) : rem ≠ 0 := by
  rintro rfl
  exact hne hn

/-- What remains after a chunk. -/
theorem rem_after_chunk (rem : Word) : (rem - chunkSize rem).toNat = rem.toNat - min rem.toNat 32 := by
  rw [BitVec.toNat_sub_of_le (chunkSize_le rem), chunkSize_toNat]

/-- The first chunk of a range of bytes. -/
theorem bytes_take_chunk (m : Memory) (a n : Nat) : (m.bytes a n).take 32 = m.bytes a (min n 32) := by
  simp [Memory.bytes, ← List.map_take, List.take_range, Nat.min_comm]

/-- A range of bytes is its first chunk and the rest. -/
theorem bytes_split_chunk (m : Memory) (a n : Nat) :
    m.bytes a n = m.bytes a (min n 32) ++ m.bytes (a + min n 32) (n - min n 32) := by
  rw [← bytes_add, Nat.add_sub_cancel' (Nat.min_le_left n 32)]

/-- The range after its first chunk. -/
theorem bytes_drop_chunk (m : Memory) (a n : Nat) :
    (m.bytes a n).drop 32 = m.bytes (a + min n 32) (n - min n 32) := by
  have hsplit := bytes_split_chunk m a n
  rw [← bytes_take_chunk] at hsplit
  exact List.append_cancel_left ((List.take_append_drop 32 _).trans hsplit)

/-- The rest of a range that ends at or below `2^32`, by the address of its first byte. -/
theorem bytes_after (m : Memory) {a : Word} {n k : Nat} (h : a.toNat + n + k ≤ 2 ^ 32) :
    m.bytes (a + BitVec.ofNat 32 n).toNat k = m.bytes (a.toNat + n) k ∧
      (a + BitVec.ofNat 32 n).toNat + k ≤ 2 ^ 32 := by
  rw [BitVec.toNat_add, BitVec.toNat_ofNat]
  cases k with
  | zero => exact ⟨rfl, by omega⟩
  | succ k =>
    have haddr : (a.toNat + n % 2 ^ 32) % 2 ^ 32 = a.toNat + n := by omega
    rw [haddr]
    exact ⟨rfl, h⟩

/-! ### READ_PUMP -/

section
variable {s : State} {v : Word} {stat rest vs rx : List Word}

/-- The error test and the loop's end, with no error in the snapshot. -/
theorem readPump_loops {l : State} (h : Serving l) (hl : l.ctl.seq = .readPump .p6) (herr : hasError l.snap = false) :
    run 2 l = .next (goto (.readPump .p1) l) := by
  obtain ⟨run6, h7⟩ := run_readPumpStep (k := 1) h hl (if_neg (Bool.eq_false_iff.mp herr)) h.busy
  obtain ⟨run7, _⟩ := run_readPumpStep (k := 0) h7 rfl rfl h.busy
  exact run6.trans run7

/-- An iteration of READ_PUMP with RXRDY and no error moves one chunk (R241, R243). -/
theorem readPump_moves_chunk (h : Serving s) (hl : s.ctl.seq = .readPump .p1) (hrem : s.pump.rem ≠ 0)
    (hstat : s.env.stat = v :: stat) (hready : bitSet v bitRxrdy = true) (herr : hasError v = false)
    (hrx : s.env.rx = vs ++ rx) (hlen : vs.length = min s.pump.rem.toNat 32) :
    ∃ t, Reaches s t ∧ t.ctl = s.ctl ∧ t.pump.rem = s.pump.rem - chunkSize s.pump.rem ∧
      t.pump.cur = s.pump.cur + chunkSize s.pump.rem ∧
      Pumped s (.read 0x04 v :: readChunkEvents s.pump.cur vs) s.ctrl { s.env with stat := stat, rx := rx }
        (s.mem.store s.pump.cur (vs.map lowByte)) t := by
  obtain ⟨run1, h2⟩ := run_readPumpStep (k := 0) h hl (if_neg hrem) h.busy
  have hsnap : readValue .stat (goto (.readPump .p2) s) = v := readValue_stat (s := goto (.readPump .p2) s) hstat
  have henv : (goto (.readPump .p2) s).env.consume .stat = { s.env with stat := stat } := consume_stat hstat
  obtain ⟨hread, h4⟩ := run_readPump_ready h2 rfl (by rwa [hsnap])
  obtain ⟨w, hchunk⟩ := run_readChunk (vs := vs) (rest := rx) h4 rfl (by simp [chunkSize_toNat, hlen])
    ((congrArg Env.rx henv).trans hrx)
  obtain ⟨hend, h6⟩ := run_readPump_chunk_end (serving_of_run h4 hchunk h.busy) rfl
  have hloop := readPump_loops h6 rfl ((congrArg hasError hsnap).trans herr)
  have hrun := (run_add run1).trans ((run_add hread).trans ((run_add hchunk).trans ((run_add hend).trans hloop)))
  refine ⟨_, ⟨_, hrun⟩, by simp [← hl], by simp, by simp, ?_⟩
  exact ⟨by simp, by simp, by simp [consume_stat hstat], by simp, by simp [hsnap, ReadReg.offset]⟩

/-- An iteration that moves nothing adds its read. -/
theorem readLoopEvents_of_idle {cur : Word} (h : bitSet v bitRxrdy = false) :
    readLoopEvents cur vs (v :: stat) = [.read 0x04 v] ++ readLoopEvents cur vs stat :=
  congrArg (Event.read 0x04 v :: ·) (if_neg (Bool.eq_false_iff.mp h))

/-- An iteration that moves a chunk adds its read and the chunk's accesses. -/
theorem readLoopEvents_of_ready {cur : Word} (h : bitSet v bitRxrdy = true) :
    readLoopEvents cur vs (v :: stat) = .read 0x04 v :: readChunkEvents cur (vs.take 32) ++
      readLoopEvents (cur + BitVec.ofNat 32 (vs.take 32).length) (vs.drop 32) stat :=
  congrArg (Event.read 0x04 v :: ·) (if_pos h)

/-- READ_PUMP's loop to its end (R241): as many iterations as there are answers read and store all the data. -/
theorem readPump_loop (h : Serving s) (hl : s.ctl.seq = .readPump .p1) (hstat : s.env.stat = stat ++ rest)
    (hrx : s.env.rx = vs ++ rx) (hlen : vs.length = s.pump.rem.toNat) (hok : pumpOk bitRxrdy vs.length stat = true) :
    ∃ t, Reaches s t ∧ t.ctl = s.ctl ∧ t.pump.rem = 0 ∧
      Pumped s (readLoopEvents s.pump.cur vs stat) s.ctrl { s.env with stat := rest, rx := rx }
        (s.mem.store s.pump.cur (vs.map lowByte)) t := by
  induction stat generalizing s vs with
  | nil =>
    obtain rfl : vs = [] := List.eq_nil_of_length_eq_zero (by simpa [pumpOk] using hok)
    exact ⟨s, ⟨0, rfl⟩, rfl, BitVec.eq_of_toNat_eq hlen.symm, ⟨rfl, rfl, by rw [← hstat.trans (List.nil_append _),
      ← hrx.trans (List.nil_append _)], rfl, rfl⟩⟩
  | cons v stat ih =>
    obtain ⟨hn, herr, hok⟩ := pumpOk_cons.mp hok
    have hrem := rem_ne_zero hlen hn
    have hstat : s.env.stat = v :: (stat ++ rest) := hstat
    cases hready : bitSet v bitRxrdy with
    | false =>
      have hidle := readPump_idles s h hl hrem (by rwa [readValue_stat hstat]) (by rwa [readValue_stat hstat])
      have hread := pumped_readStat hstat
      rw [if_neg (Bool.eq_false_iff.mp hready)] at hok
      obtain ⟨t, hreach, hct, hrem, ht⟩ := ih (serving_of_run h hidle h.busy) hl
        (congrArg Env.stat hread.env) ((congrArg Env.rx hread.env).trans hrx) hlen hok
      rw [hread.ctrl, hread.env, hread.mem] at ht
      refine ⟨t, .trans ⟨5, hidle⟩ hreach, hct, hrem, ?_⟩
      rw [readLoopEvents_of_idle hready]
      exact hread.trans ht
    | true =>
      rw [if_pos hready] at hok
      have hchunk : (vs.take 32).length = min s.pump.rem.toNat 32 := by
        rw [List.length_take, hlen, Nat.min_comm]
      obtain ⟨t, hreach, hct, hrem', hcur, ht⟩ := readPump_moves_chunk (vs := vs.take 32) (rx := vs.drop 32 ++ rx) h hl
        hrem hstat hready herr (by rw [hrx, ← List.append_assoc, List.take_append_drop]) hchunk
      have hleft : (vs.drop 32).length = t.pump.rem.toNat := by
        rw [hrem', rem_after_chunk, List.length_drop, hlen]
        omega
      obtain ⟨u, hrest, hcu, hrem'', hu⟩ := ih (hreach.serving h (by rw [hct, h.busy])) (by rw [hct, hl])
        (congrArg Env.stat ht.env) (congrArg Env.rx ht.env) hleft
        (by rwa [hleft, hrem', rem_after_chunk, ← hlen])
      rw [ht.ctrl, ht.env, ht.mem, hcur, cursor_after_chunk _ hchunk] at hu
      refine ⟨u, hreach.trans hrest, hcu.trans hct, hrem'', ?_⟩
      rw [readLoopEvents_of_ready hready]
      conv in vs.map lowByte => rw [← List.take_append_drop 32 vs, List.map_append]
      rw [store_append, List.length_map]
      exact ht.trans hu

end

/-! ### WRITE_PUMP -/

/-- `c` after a loop of WRITE_PUMP over `n` bytes: PRTBUF is written when the last chunk is short (R244). -/
def CtrlRegs.signaled (c : CtrlRegs) (n : Nat) : CtrlRegs := { c with prtbuf := if n % 32 = 0 then c.prtbuf else 0x1 }

/-- The signal after the first chunk and those of the rest are those of the whole. -/
theorem signaled_signaled (c : CtrlRegs) {n : Nat} (hn : n ≠ 0) :
    ({ c with prtbuf := if n < 32 then 0x1 else c.prtbuf } : CtrlRegs).signaled (n - min n 32) = c.signaled n := by
  by_cases h : n < 32
  · have hlast : n - min n 32 = 0 := by omega
    have hshort : n % 32 ≠ 0 := by omega
    simp [CtrlRegs.signaled, h, hlast, hshort]
  · have hmod : (n - min n 32) % 32 = n % 32 := by omega
    simp [CtrlRegs.signaled, h, hmod]

/-- The partial-buffer signal after a chunk (R244). -/
theorem pumped_signalPartial (s : State) :
    Pumped s (if s.pump.chunk.toNat < 32 then [.write 0x24 0x1] else [])
      { s.ctrl with prtbuf := if s.pump.chunk.toNat < 32 then 0x1 else s.ctrl.prtbuf } s.env s.mem
      (signalPartial s) := by
  by_cases h : s.pump.chunk.toNat < 32
  · rw [signalPartial_of_short h, if_pos h, if_pos h]
    exact {}
  · rw [signalPartial_of_full (Nat.le_of_not_lt h), if_neg h, if_neg h]
    exact {}

section
variable {s : State} {v : Word} {stat rest : List Word} {n : Nat}

/-- An iteration of WRITE_PUMP with TXRDY sends a chunk (R242, R243). -/
theorem writePump_sends_chunk (h : Serving s) (hl : s.ctl.seq = .writePump .w1) (hrem : s.pump.rem ≠ 0)
    (hstat : s.env.stat = v :: stat) (hready : bitSet v bitTxrdy = true) (hn : n = min s.pump.rem.toNat 32)
    (hrange : s.pump.cur.toNat + n ≤ 2 ^ 32) :
    ∃ t, Reaches s t ∧ t.ctl = { s.ctl with seq := .writePump .w5 } ∧ t.snap = v ∧ t.pump.rem = s.pump.rem ∧
      t.pump.chunk = chunkSize s.pump.rem ∧ t.pump.cur = s.pump.cur + chunkSize s.pump.rem ∧
      Pumped s (.read 0x04 v :: writeChunkEvents s.pump.cur (s.mem.bytes s.pump.cur.toNat n)) s.ctrl
        { s.env with stat := stat, tx := s.env.tx ++ s.mem.bytes s.pump.cur.toNat n } s.mem t := by
  obtain ⟨run1, h2⟩ := run_writePumpStep (k := 0) h hl (if_neg hrem) h.busy
  have hsnap : readValue .stat (goto (.writePump .w2) s) = v := readValue_stat (s := goto (.writePump .w2) s) hstat
  obtain ⟨hread, h4⟩ := run_writePump_ready h2 rfl (by rwa [hsnap])
  obtain ⟨b, hchunk⟩ := run_writeChunk h4 rfl (by simp [chunkSize_toNat, hn]) hrange
  refine ⟨_, ⟨_, (run_add run1).trans ((run_add hread).trans hchunk)⟩, by simp, by simp [hsnap], by simp, by simp,
    by simp, ?_⟩
  exact ⟨by simp, by simp, by simp [consume_stat hstat], by simp, by simp [hsnap, ReadReg.offset]⟩

/-- The error test and the loop's end, with no error in the snapshot. -/
theorem writePump_loops {l : State} (h : Serving l) (hl : l.ctl.seq = .writePump .w7) (herr : hasError l.snap = false) :
    run 2 l = .next (goto (.writePump .w1) l) := by
  obtain ⟨run7, h8⟩ := run_writePumpStep (k := 1) h hl (if_neg (Bool.eq_false_iff.mp herr)) h.busy
  obtain ⟨run8, _⟩ := run_writePumpStep (k := 0) h8 rfl rfl h.busy
  exact run7.trans run8

/-- After a chunk with no error in the snapshot WRITE_PUMP signals, counts it and loops (R244, R245). -/
theorem writePump_ends_chunk (h : Serving s) (hl : s.ctl.seq = .writePump .w5) (herr : hasError s.snap = false) :
    ∃ t, Reaches s t ∧ t.ctl = { s.ctl with seq := .writePump .w1 } ∧
      t.pump = { s.pump with rem := s.pump.rem - s.pump.chunk } ∧
      Pumped s (if s.pump.chunk.toNat < 32 then [.write 0x24 0x1] else [])
        { s.ctrl with prtbuf := if s.pump.chunk.toNat < 32 then 0x1 else s.ctrl.prtbuf } s.env s.mem t := by
  obtain ⟨hend, h7⟩ := run_writePump_chunk_end h hl
  have hrun := (run_add hend).trans (writePump_loops h7 rfl (by simpa using herr))
  obtain ⟨hdone, hctrl, henv, hmem, htrace⟩ := pumped_signalPartial s
  exact ⟨_, ⟨_, hrun⟩, by simp, by simp, hdone, hctrl, henv, hmem, htrace⟩

/-- An iteration of WRITE_PUMP with TXRDY and no error moves one chunk. -/
theorem writePump_moves_chunk (h : Serving s) (hl : s.ctl.seq = .writePump .w1) (hrem : s.pump.rem ≠ 0)
    (hstat : s.env.stat = v :: stat) (hready : bitSet v bitTxrdy = true) (herr : hasError v = false)
    (hn : n = s.pump.rem.toNat) (hrange : s.pump.cur.toNat + n ≤ 2 ^ 32) :
    ∃ t, Reaches s t ∧ t.ctl = s.ctl ∧ t.pump.rem.toNat = n - min n 32 ∧
      t.pump.cur = s.pump.cur + BitVec.ofNat 32 (min n 32) ∧
      Pumped s
        (.read 0x04 v :: writeChunkEvents s.pump.cur (s.mem.bytes s.pump.cur.toNat (min n 32)) ++
          if n < 32 then [.write 0x24 0x1] else [])
        { s.ctrl with prtbuf := if n < 32 then 0x1 else s.ctrl.prtbuf }
        { s.env with stat := stat, tx := s.env.tx ++ s.mem.bytes s.pump.cur.toNat (min n 32) } s.mem t := by
  subst hn
  obtain ⟨t, hsend, hct, hsnap, hrem, hchunk, hcur, ht⟩ :=
    writePump_sends_chunk (n := min s.pump.rem.toNat 32) h hl hrem hstat hready rfl (by omega)
  obtain ⟨u, hend, hcu, hpump, hu⟩ :=
    writePump_ends_chunk (hsend.serving h (by rw [hct, h.busy])) (by rw [hct]) (by rwa [hsnap])
  simp only [hchunk, chunkSize_lt_fifo_iff] at hu
  rw [ht.ctrl, ht.env, ht.mem] at hu
  refine ⟨u, hsend.trans hend, by rw [hcu, hct, ← hl], ?_, ?_, ht.trans hu⟩
  · rw [hpump, hrem, hchunk, rem_after_chunk]
  · rw [hpump, hcur, cursor_after_chunk _ rfl]

/-- An iteration that moves nothing adds its read. -/
theorem writeLoopEvents_of_idle {cur : Word} {data : List Byte} (h : bitSet v bitTxrdy = false) :
    writeLoopEvents cur data (v :: stat) = [.read 0x04 v] ++ writeLoopEvents cur data stat :=
  congrArg (Event.read 0x04 v :: ·) (if_neg (Bool.eq_false_iff.mp h))

/-- An iteration that moves a chunk adds its read, the chunk's accesses and the signal after a short one. -/
theorem writeLoopEvents_of_ready {cur : Word} {data : List Byte} (h : bitSet v bitTxrdy = true) :
    writeLoopEvents cur data (v :: stat) =
      .read 0x04 v :: writeChunkEvents cur (data.take 32) ++ (if data.length < 32 then [.write 0x24 0x1] else []) ++
        writeLoopEvents (cur + BitVec.ofNat 32 (data.take 32).length) (data.drop 32) stat :=
  congrArg (Event.read 0x04 v :: ·) (if_pos h)

/-- WRITE_PUMP's loop to its end (R242, R244): as many iterations as there are answers send all the data. -/
theorem writePump_loop (h : Serving s) (hl : s.ctl.seq = .writePump .w1) (hstat : s.env.stat = stat ++ rest)
    (hn : n = s.pump.rem.toNat) (hrange : s.pump.cur.toNat + n ≤ 2 ^ 32) (hok : pumpOk bitTxrdy n stat = true) :
    ∃ t, Reaches s t ∧ t.ctl = s.ctl ∧ t.pump.rem = 0 ∧
      Pumped s (writeLoopEvents s.pump.cur (s.mem.bytes s.pump.cur.toNat n) stat) (s.ctrl.signaled n)
        { s.env with stat := rest, tx := s.env.tx ++ s.mem.bytes s.pump.cur.toNat n } s.mem t := by
  induction stat generalizing s n with
  | nil =>
    obtain rfl : n = 0 := by simpa [pumpOk] using hok
    refine ⟨s, ⟨0, rfl⟩, rfl, BitVec.eq_of_toNat_eq hn.symm, ⟨rfl, rfl, ?_, rfl, rfl⟩⟩
    rw [← hstat.trans (List.nil_append _), bytes_zero, List.append_nil]
  | cons v stat ih =>
    obtain ⟨hne, herr, hok⟩ := pumpOk_cons.mp hok
    have hrem := rem_ne_zero hn hne
    have hstat : s.env.stat = v :: (stat ++ rest) := hstat
    cases hready : bitSet v bitTxrdy with
    | false =>
      have hidle := writePump_idles s h hl hrem (by rwa [readValue_stat hstat]) (by rwa [readValue_stat hstat])
      have hread := pumped_readStat hstat
      rw [if_neg (Bool.eq_false_iff.mp hready)] at hok
      obtain ⟨t, hreach, hct, hrem, ht⟩ := ih (serving_of_run h hidle h.busy) hl (congrArg Env.stat hread.env) hn hrange
        hok
      rw [hread.ctrl, hread.env, hread.mem] at ht
      refine ⟨t, .trans ⟨5, hidle⟩ hreach, hct, hrem, ?_⟩
      rw [writeLoopEvents_of_idle hready]
      exact hread.trans ht
    | true =>
      rw [if_pos hready] at hok
      obtain ⟨t, hreach, hct, hrem, hcur, ht⟩ := writePump_moves_chunk h hl hrem hstat hready herr hn hrange
      obtain ⟨hbytes, hrange'⟩ := bytes_after s.mem (a := s.pump.cur) (n := min n 32) (k := n - min n 32) (by omega)
      obtain ⟨u, hrest, hcu, hrem', hu⟩ := ih (n := n - min n 32) (hreach.serving h (by rw [hct, h.busy]))
        (by rw [hct, hl]) (congrArg Env.stat ht.env) hrem.symm (by rwa [hcur]) hok
      rw [ht.ctrl, ht.env, ht.mem, hcur, hbytes, signaled_signaled _ hne] at hu
      refine ⟨u, hreach.trans hrest, hcu.trans hct, hrem', ?_⟩
      rw [writeLoopEvents_of_ready hready, bytes_length, bytes_take_chunk, bytes_drop_chunk, bytes_length,
        bytes_split_chunk s.mem s.pump.cur.toNat n, ← List.append_assoc s.env.tx]
      exact ht.trans hu

end

/-! ### The waits after the loops (R246, R247) -/

section
variable {s : State} {done programmed stat rest rx : List Word}

/-- A called AWAIT with a last answer that meets the condition comes to the step after the call. -/
theorem pump_awaits {mask : Word} {pol : Polarity} {site : Site} {back : Label} {answers : List Word} (h : Serving s)
    (hc : procStep s = callAwait mask pol site back s) (hstat : s.env.stat = answers ++ rest)
    (hok : PollOk mask pol answers) :
    ∃ t, Reaches s t ∧ Serving t ∧ t.ctl = { s.ctl with seq := back } ∧
      Pumped s (pollEvents answers) s.ctrl { s.env with stat := rest } s.mem t := by
  obtain ⟨k, p, v, hrun, ht⟩ := run_called_await_ok h hc (answers_of_pending hstat) hok
  exact ⟨_, ⟨k, hrun⟩, ht, rfl, {}⟩

/-- With nothing left READ_PUMP waits for the end of the data and EXECUTE completes with Ok (R246). -/
theorem readPump_finishes (h : Serving s) (hl : s.ctl.seq = .readPump .p1) (hrem : s.pump.rem = 0)
    (hstat : s.env.stat = done ++ rest) (hok : PollOk 0x800 .set done) :
    ∃ t, Reaches s (complete .ok none t) ∧ Pumped s (pollEvents done) s.ctrl { s.env with stat := rest } s.mem t := by
  rw [← mask_dataTranDone] at hok
  obtain ⟨run1, h8⟩ := run_readPumpStep (k := 0) h hl (if_pos hrem) h.busy
  obtain ⟨t, hwait, h9, hct, ht⟩ := pump_awaits h8 rfl hstat hok
  obtain ⟨hdone, hctrl, henv, hmem, htrace⟩ := ht
  have hret : procStep t = ret t := by
    rw [procStep, hct]
    rfl
  exact ⟨t, .trans ⟨1, run1⟩ (hwait.trans ⟨2, run_pump_returns h9 (by rw [hct]; rfl) hret⟩), hdone, hctrl, henv, hmem,
    htrace⟩

/-- With nothing left WRITE_PUMP waits for the end of the data, then for the end of the programming, and EXECUTE completes
with Ok (R247). -/
theorem writePump_finishes (h : Serving s) (hl : s.ctl.seq = .writePump .w1) (hrem : s.pump.rem = 0)
    (hstat : s.env.stat = done ++ (programmed ++ rest)) (hok : PollOk 0x800 .set done)
    (hprogrammed : PollOk 0x1000 .set programmed) :
    ∃ t, Reaches s (complete .ok none t) ∧
      Pumped s (pollEvents done ++ pollEvents programmed) s.ctrl { s.env with stat := rest } s.mem t := by
  rw [← mask_dataTranDone] at hok
  rw [← mask_prgDone] at hprogrammed
  obtain ⟨run1, h9⟩ := run_writePumpStep (k := 0) h hl (if_pos hrem) h.busy
  obtain ⟨t, hwait, h10, hct, ht⟩ := pump_awaits h9 rfl hstat hok
  have hcall : procStep t = writePumpStep t .w10 := by rw [procStep, hct]
  obtain ⟨u, hwait', h11, hcu, hu⟩ := pump_awaits h10 hcall (congrArg Env.stat ht.env) hprogrammed
  rw [ht.ctrl, ht.env, ht.mem] at hu
  obtain ⟨hdone, hctrl, henv, hmem, htrace⟩ := ht.trans hu
  have hret : procStep u = ret u := by
    rw [procStep, hcu]
    rfl
  exact ⟨u, .trans ⟨1, run1⟩ (hwait.trans (hwait'.trans ⟨2, run_pump_returns h11 (by rw [hcu]; rfl) hret⟩)), hdone,
    hctrl, henv, hmem, htrace⟩

/-! ### The data phase whole -/

/-- E7 calls READ_PUMP, which starts at the buffer with the whole length (R240, R285). -/
theorem execute_starts_readPump (h : Serving s) (hc : s.ctl = { seq := .execute .e7, stk := [], busy := true })
    (hd : s.data = true) (hdir : s.dir = false) :
    ∃ t, Reaches s t ∧ Serving t ∧ t.ctl.seq = .readPump .p1 ∧ t.pump.rem = s.length ∧ t.pump.cur = s.rq.buf ∧
      Pumped s [] s.ctrl s.env s.mem t := by
  have hcall : procStep s = call (.readPump .p0) (.execute .e8) s :=
    ((procStep_execute (l := .e7) (by rw [hc])).trans (if_pos hd)).trans (if_neg (Bool.eq_false_iff.mp hdir))
  obtain ⟨run7, h0⟩ := run_serving_to (k := 1) h hcall h.busy
  obtain ⟨run0, h1⟩ := run_readPumpStep (k := 0) h0 rfl rfl h.busy
  exact ⟨_, ⟨2, run7.trans run0⟩, h1, rfl, rfl, rfl, {}⟩

/-- E7 calls WRITE_PUMP in the same way. -/
theorem execute_starts_writePump (h : Serving s) (hc : s.ctl = { seq := .execute .e7, stk := [], busy := true })
    (hd : s.data = true) (hdir : s.dir = true) :
    ∃ t, Reaches s t ∧ Serving t ∧ t.ctl.seq = .writePump .w1 ∧ t.pump.rem = s.length ∧ t.pump.cur = s.rq.buf ∧
      Pumped s [] s.ctrl s.env s.mem t := by
  have hcall : procStep s = call (.writePump .w0) (.execute .e8) s :=
    ((procStep_execute (l := .e7) (by rw [hc])).trans (if_pos hd)).trans (if_pos hdir)
  obtain ⟨run7, h0⟩ := run_serving_to (k := 1) h hcall h.busy
  obtain ⟨run0, h1⟩ := run_writePumpStep (k := 0) h0 rfl rfl h.busy
  exact ⟨_, ⟨2, run7.trans run0⟩, h1, rfl, rfl, rfl, {}⟩

/-- From E7 an EXEC.RD with no error reads all the data, waits, and completes with Ok (R246, R287). -/
theorem execute_reads {vs : List Word} (h : Serving s) (hc : s.ctl = { seq := .execute .e7, stk := [], busy := true })
    (hd : s.data = true) (hdir : s.dir = false) (hstat : s.env.stat = stat ++ (done ++ rest))
    (hrx : s.env.rx = vs ++ rx) (hlen : vs.length = s.rq.blocks.toNat * s.rq.blksize.toNat)
    (hok : pumpOk bitRxrdy vs.length stat = true) (hdone : PollOk 0x800 .set done) :
    ∃ t, Reaches s (complete .ok none t) ∧
      Pumped s (readLoopEvents s.rq.buf vs stat ++ pollEvents done) s.ctrl { s.env with stat := rest, rx := rx }
        (s.mem.store s.rq.buf (vs.map lowByte)) t := by
  obtain ⟨t, hstart, hst, hlt, hrem, hcur, ht⟩ := execute_starts_readPump h hc hd hdir
  obtain ⟨u, hloop, hcu, hrem', hu⟩ := readPump_loop hst hlt ((congrArg Env.stat ht.env).trans hstat)
    ((congrArg Env.rx ht.env).trans hrx) (by rw [hrem, length_toNat, hlen]) hok
  obtain ⟨w, hend, hw⟩ := readPump_finishes (hloop.serving hst (by rw [hcu, hst.busy])) (by rw [hcu, hlt]) hrem'
    (congrArg Env.stat hu.env) hdone
  rw [hu.ctrl, hu.env, hu.mem] at hw
  have hwhole := hu.trans hw
  rw [ht.ctrl, ht.env, ht.mem, hcur] at hwhole
  exact ⟨w, hstart.trans (hloop.trans hend), ht.trans hwhole⟩

/-- From E7 an EXEC.WR with no error sends all the data, waits twice, and completes with Ok (R247, R288). -/
theorem execute_writes {n : Nat} (h : Serving s) (hc : s.ctl = { seq := .execute .e7, stk := [], busy := true })
    (hd : s.data = true) (hdir : s.dir = true) (hstat : s.env.stat = stat ++ (done ++ (programmed ++ rest)))
    (hlen : n = s.rq.blocks.toNat * s.rq.blksize.toNat) (hrange : s.rq.buf.toNat + n ≤ 2 ^ 32)
    (hok : pumpOk bitTxrdy n stat = true) (hdone : PollOk 0x800 .set done)
    (hprogrammed : PollOk 0x1000 .set programmed) :
    ∃ t, Reaches s (complete .ok none t) ∧
      Pumped s
        (writeLoopEvents s.rq.buf (s.mem.bytes s.rq.buf.toNat n) stat ++ (pollEvents done ++ pollEvents programmed))
        (s.ctrl.signaled n) { s.env with stat := rest, tx := s.env.tx ++ s.mem.bytes s.rq.buf.toNat n } s.mem t := by
  obtain ⟨t, hstart, hst, hlt, hrem, hcur, ht⟩ := execute_starts_writePump h hc hd hdir
  obtain ⟨u, hloop, hcu, hrem', hu⟩ := writePump_loop hst hlt ((congrArg Env.stat ht.env).trans hstat)
    (by rw [hrem, length_toNat, hlen]) (by rwa [hcur]) hok
  obtain ⟨w, hend, hw⟩ := writePump_finishes (hloop.serving hst (by rw [hcu, hst.busy])) (by rw [hcu, hlt]) hrem'
    (congrArg Env.stat hu.env) hdone hprogrammed
  rw [hu.ctrl, hu.env, hu.mem] at hw
  have hwhole := hu.trans hw
  rw [ht.ctrl, ht.env, ht.mem, hcur] at hwhole
  exact ⟨w, hstart.trans (hloop.trans hend), ht.trans hwhole⟩

end

/-! ### EXEC.RD and EXEC.WR whole -/

section
variable (dir crc busyf w4 : Bool) (cmd : BitVec 6) (rt : RType) (s : State)

/-- The state in which a data request for this command is accepted. -/
abbrev acceptedData : State := accept (encodeExecute true dir cmd rt crc busyf w4) (.execute .e0) s

/-- What a data request writes to CMDAT (R190 to R192). -/
def dataCmdat : Word :=
  (if dir then if w4 then 0x10C else 0xC else if w4 then 0x104 else 0x4) ||| (rspFmt rt).setWidth 32 |||
    if busyf then 0x20 else 0

/-- The events of a data request's command: the data registers first (R282), then the four writes of ISSUE and the one
that starts the clock. -/
def State.dataEvents (cmdat : Word) : List Event :=
  [.write 0x20 (s.port.blocks.setWidth 32), .write 0x1C (s.port.blksize.setWidth 32), .write 0x14 0x7F,
    .write 0x30 (cmd.setWidth 32), .write 0x34 ((s.port.arg.extractLsb' 16 16).setWidth 32),
    .write 0x38 ((s.port.arg.extractLsb' 0 16).setWidth 32), .write 0x10 cmdat, .write 0x00 0x2]

/-- The controller's registers after these events. -/
def State.dataCtrl (cmdat : Word) : CtrlRegs :=
  { s.ctrl with
    nob := s.port.blocks.setWidth 32
    blklen := s.port.blksize.setWidth 32
    resto := 0x7F
    cmd := cmd.setWidth 32
    argh := argHigh s.port.arg
    argl := argLow s.port.arg
    cmdat := cmdat
    strpcl := 0x2 }

/-- The data phase, the direction and the CRC check that a data request declares (R112). -/
theorem acceptedData_declares :
    (acceptedData dir crc busyf w4 cmd rt s).data = true ∧ (acceptedData dir crc busyf w4 cmd rt s).dir = dir ∧
    (acceptedData dir crc busyf w4 cmd rt s).crc = crc := by
  simp [State.data, State.dir, State.crc]

theorem acceptedData_cmdat :
    (acceptedData dir crc busyf w4 cmd rt s).cmdat (acceptedData dir crc busyf w4 cmd rt s).setUpFlags =
      dataCmdat dir busyf w4 rt := by
  cases dir <;> cases w4 <;>
    simp [State.cmdat, State.setUpFlags, State.data, State.dir, State.w4, State.rtype, State.busyf, orWhen, flagDataEn,
      flagWrite, flagSd4dat, bitMask, dataCmdat]

theorem acceptedData_commandEvents :
    (acceptedData dir crc busyf w4 cmd rt s).commandEvents = s.dataEvents cmd (dataCmdat dir busyf w4 rt) := by
  rw [State.commandEvents, acceptedData_cmdat]
  simp [State.setUpEvents, State.issueEvents, State.data, State.cmdIdx, WriteReg.offset, argHigh, argLow,
    Config.strpclStart, Config.restoMax, State.dataEvents]

theorem acceptedData_commandCtrl :
    (acceptedData dir crc busyf w4 cmd rt s).commandCtrl = s.dataCtrl cmd (dataCmdat dir busyf w4 rt) := by
  rw [State.commandCtrl, acceptedData_cmdat]
  simp [State.setUpCtrl, State.issueCtrl, State.data, State.cmdIdx, Config.strpclStart, Config.restoMax, State.dataCtrl]

/-- With every wait answered and a response that has no error that counts a data request comes to its data phase. -/
theorem acceptedData_responds {stop start ended stat res : List Word} {status h0 h1 h2 h3 h4 h5 h6 h7 h8 : Word}
    (h : Accepted (acceptedData dir crc busyf w4 cmd rt s))
    (hstat : s.env.stat = stop ++ start ++ ended ++ status :: stat)
    (hres : s.env.res = [h0, h1, h2, h3, h4, h5, h6, h7, h8] ++ res) (hstop : StopOk stop)
    (hstart : PollOk 0x100 .set start) (hended : PollOk 0x2000 .set ended) (answered : status.getLsbD 1 = false)
    (passes : status.getLsbD 5 = false ∨ crc = false) :
    ∃ t, Reaches (acceptedData dir crc busyf w4 cmd rt s) t ∧
      t.ctl = { seq := .execute .e7, stk := [], busy := true } ∧ t.data = true ∧ t.dir = dir ∧
      Performed (acceptedData dir crc busyf w4 cmd rt s)
        (stopEvents stop ++ s.dataEvents cmd (dataCmdat dir busyf w4 rt) ++ pollEvents start ++ pollEvents ended ++
          ([.read 0x04 status] ++ [h0, h1, h2, h3, h4, h5, h6, h7, h8].map (Event.read 0x3C)))
        (reassembled h0 h1 h2 h3 h4 h5 h6 h7 h8) (s.dataCtrl cmd (dataCmdat dir busyf w4 rt))
        { s.env with stat := stat, res := res } t := by
  obtain ⟨hd, hdir, hcrc⟩ := acceptedData_declares dir crc busyf w4 cmd rt s
  obtain ⟨t, hreach, hct, ht⟩ := execute_responds h hstat hres hstop hstart hended answered (by rwa [hcrc])
  rw [State.commandTrace, acceptedData_commandEvents, acceptedData_commandCtrl] at ht
  exact ⟨t, hreach, hct, by rwa [State.data, ht.rq], by rwa [State.dir, ht.rq], ht⟩

end

/-- Settles O27: the command and the response bring EXECUTE to E7, from where READ_PUMP stores all the data. -/
theorem execRdSucceeds : Obligations.ExecRdSucceeds := by
  intro s cmd rt crc busyf w4 stop start ended pump done rest status h0 h1 h2 h3 h4 h5 h6 h7 h8 res vs rx hb hq hwf hfits
    hstat hres hrx hlen hstop hstart hended answered passes hok hdone
  obtain ⟨hexec, ha⟩ := exec_accepts (i := .execRd cmd rt crc busyf w4) hb hq hfits rfl
  obtain ⟨t, hreach, hct, hd, hdir, ht⟩ := acceptedData_responds false crc busyf w4 cmd rt s ha hstat hres hstop hstart
    hended answered passes
  obtain ⟨u, hreads, hu⟩ := execute_reads (hreach.serving ha.serving (by rw [hct])) hct hd hdir
    ((congrArg Env.stat ht.env).trans (List.append_assoc ..)) ((congrArg Env.rx ht.env).trans hrx)
    (by rw [ht.rq]; exact hlen) hok hdone
  rw [ht.rq, ht.ctrl, ht.env, ht.mem] at hu
  obtain ⟨k, hrun⟩ := hreach.trans hreads
  have hrange : s.port.buf.toNat + (vs.map lowByte).length ≤ 2 ^ 32 := by
    rw [List.length_map, hlen]
    exact of_decide_eq_true hfits
  have hmem : (complete .ok none u).mem = s.mem.store s.port.buf (vs.map lowByte) := hu.mem
  refine ⟨_, k, _, hexec, hrun, rfl, by simp [hu.done, ht.done], fun k hk => ?_, fun b hb => ?_, ?_⟩
  · rw [hmem, read_store_inside hwf hrange (by rwa [List.length_map])]
    exact List.getElem_map _
  · rw [hmem]
    exact read_store_outside hwf hrange (by rwa [List.length_map])
  · simp [hu.ctrl, hu.env, hu.trace, ht.trace, State.dataCtrl, State.dataEvents, dataCmdat]

/-- Settles O28: the command and the response bring EXECUTE to E7, from where WRITE_PUMP sends all the data. -/
theorem execWrSucceeds : Obligations.ExecWrSucceeds := by
  intro s cmd rt crc busyf w4 stop start ended pump done programmed rest status h0 h1 h2 h3 h4 h5 h6 h7 h8 res hb hq hfits
    hstat hres hstop hstart hended answered passes hok hdone hprogrammed
  obtain ⟨hexec, ha⟩ := exec_accepts (i := .execWr cmd rt crc busyf w4) hb hq hfits rfl
  obtain ⟨t, hreach, hct, hd, hdir, ht⟩ := acceptedData_responds true crc busyf w4 cmd rt s ha hstat hres hstop hstart
    hended answered passes
  have hrq : t.rq.buf = s.port.buf ∧ t.rq.blocks = s.port.blocks ∧ t.rq.blksize = s.port.blksize := by simp [ht.rq]
  obtain ⟨hbuf, hblocks, hblksize⟩ := hrq
  obtain ⟨u, hwrites, hu⟩ := execute_writes (stat := pump) (rest := rest) (hreach.serving ha.serving (by rw [hct])) hct
    hd hdir ((congrArg Env.stat ht.env).trans (by simp)) rfl
    (by rw [hbuf, hblocks, hblksize]; exact of_decide_eq_true hfits) (by rw [hblocks, hblksize]; exact hok) hdone hprogrammed
  rw [hbuf, hblocks, hblksize, ht.ctrl, ht.env, ht.mem] at hu
  obtain ⟨k, hrun⟩ := hreach.trans hwrites
  refine ⟨_, k, _, hexec, hrun, rfl, by simp [hu.done, ht.done], hu.mem, hu.env, ?_⟩
  simp [hu.ctrl, hu.trace, ht.trace, State.dataCtrl, State.dataEvents, dataCmdat, CtrlRegs.signaled]

end Sys2Proof.Machine
end

section
/-! PROOFS. The divider of a rate (spec/46_clock_rate.md R323). -/

namespace Sys2Proof.Machine

/-- The ratio of a rate is the quotient rounded up to even: the sum does not wrap. -/
theorem evenRatio_toNat (hz : Word) :
    (evenRatio hz).toNat = 19500000 / hz.toNat + 19500000 / hz.toNat % 2 := by
  have hle : 19500000 / hz.toNat ≤ 19500000 := Nat.div_le_self ..
  have hquot : (Config.fMax / hz).toNat = 19500000 / hz.toNat := BitVec.toNat_udiv ..
  have hodd : (Config.fMax / hz % 2).toNat = 19500000 / hz.toNat % 2 := by rw [BitVec.toNat_umod, hquot]; rfl
  rw [evenRatio, BitVec.toNat_add, hquot, hodd]
  omega

theorem log2_eq_zero_iff (n : Nat) : n.log2 = 0 ↔ n < 2 := by
  rw [Nat.log2_def]
  split <;> omega

/-- With fuel enough the loop of SR4 adds the logarithm of the ratio to `DIV`: each halving takes one from it. -/
theorem halveFrom_div (fuel : Nat) (d : Divider) (h : d.ratio.toNat.log2 ≤ fuel) :
    (halveFrom fuel d).div = d.div + BitVec.ofNat 32 d.ratio.toNat.log2 := by
  induction fuel generalizing d with
  | zero => simp [halveFrom, Nat.le_zero.mp h]
  | succ fuel ih =>
    by_cases hgt : d.ratio > 1
    · have hhalf : (d.ratio >>> 1).toNat = d.ratio.toNat / 2 := by
        rw [BitVec.toNat_ushiftRight, Nat.shiftRight_eq_div_pow, Nat.pow_one]
      have hlog : d.ratio.toNat.log2 = (d.ratio >>> 1).toNat.log2 + 1 := by
        rw [hhalf, Nat.log2_def, if_pos (show 2 ≤ d.ratio.toNat from hgt)]
      rw [halveFrom, if_pos hgt, ih _ (by dsimp only; omega), hlog]
      bv_omega
    · have hlog : d.ratio.toNat.log2 = 0 := (log2_eq_zero_iff _).mpr (Nat.lt_of_not_le hgt)
      rw [halveFrom, if_neg hgt, hlog, BitVec.add_zero]

/-- The logarithm of a word is below the fuel of SR4's loop (log 29). -/
theorem log2_toNat_lt (w : Word) : w.toNat.log2 < 32 := by
  by_cases hzero : w.toNat = 0
  · rw [hzero, Nat.log2_zero]
    decide
  · exact (Nat.log2_lt hzero).mpr w.isLt

/-- The divider of a ratio is its logarithm, rounded down (R323). -/
theorem halvings_div_toNat (ratio : Word) : (halvings ratio).div.toNat = ratio.toNat.log2 := by
  have hlog : ratio.toNat.log2 < 32 := log2_toNat_lt ratio
  have hdiv : (halvings ratio).div = 0 + BitVec.ofNat 32 ratio.toNat.log2 := halveFrom_div 32 _ (Nat.le_of_lt hlog)
  bv_omega

/-- There is nothing to halve exactly above `F_MAX`: there the quotient is 0, up to it the even ratio is 2 or more. -/
theorem log2_evenRatio_eq_zero_iff {hz : Word} (h : hz ≠ 0) :
    (evenRatio hz).toNat.log2 = 0 ↔ 19500000 < hz.toNat := by
  have hpos : 0 < hz.toNat := by bv_omega
  have hquot : 19500000 / hz.toNat = 0 ↔ 19500000 < hz.toNat := Nat.div_eq_zero_iff_lt hpos
  rw [log2_eq_zero_iff, evenRatio_toNat, ← hquot]
  generalize 19500000 / hz.toNat = q
  omega

/-- Settles O31: the divider is the logarithm of the even ratio, which is below 2 exactly above `F_MAX`. -/
theorem dividerFunction : Obligations.DividerFunction := by
  intro hz hne
  have hzero := log2_evenRatio_eq_zero_iff hne
  have hlt := log2_toNat_lt (evenRatio hz)
  have hratio := evenRatio_toNat hz
  have hle : 19500000 / hz.toNat ≤ 19500000 := Nat.div_le_self ..
  rw [BitVec.toNat_eq, halvings_div_toNat, ← hratio]
  refine ⟨rfl, by omega, ?_, hzero, by omega, by omega⟩
  split
  · exact (log2_eq_zero_iff _).mpr (by omega)
  · rfl

end Sys2Proof.Machine
end

section
/-! PROOFS. SETRATE from its acceptance to its completion (spec/46_clock_rate.md R320 to R322, R327, R328). -/

namespace Sys2Proof.Machine

/-! ### A stop whose error is discarded -/

section
variable {s : State} {back : Label} {stk : List Label} {mask : Word} {pol : Polarity} {site : Site} {v : Word}
  {answers : List Word} {e : Env}

/-- AWAIT with answers that fail the condition resumes the caller that discards its error (R152, R292). -/
theorem await_times_out_discarded (h : Serving s) (hl : s.ctl.seq = .await (.a0 mask pol site))
    (hs : catcher s.ctl.stk = some (back, stk)) (ha : s.env.Answers answers e) (hf : PollFails mask pol answers) :
    ∃ t, Reaches s t ∧ t.ctl = { seq := back, stk := stk, busy := true } ∧
      Performed s (pollEvents answers) s.resp s.ctrl e t := by
  obtain ⟨k, p, v, hrun⟩ := run_await_fails h hl ha hf
  have hraise : raise (.timeout site) (s.polled p v e (pollEvents answers)) =
      (s.polled p v e (pollEvents answers)).setCtl { seq := back, stk := stk, busy := true } := by
    simp [raise, hs, h.busy]
  exact ⟨_, ⟨k, hrun.trans (congrArg _ hraise)⟩, rfl, {}⟩

/-- STOP_CLOCK with a clock that stays on resumes the caller that discards its error (R292, R327). -/
theorem stopClock_times_out_discarded (h : Serving s) (hl : s.ctl.seq = .stopClock .s0)
    (hs : catcher s.ctl.stk = some (back, stk)) (ha : s.env.Answers (v :: answers) e)
    (hv : bitSet v bitClkEn = true) (hf : PollFails (bitMask bitClkEn) .clear answers) :
    ∃ t, Reaches s t ∧ t.ctl = { seq := back, stk := stk, busy := true } ∧
      Performed s ([.read ReadReg.stat.offset v, .write WriteReg.strpcl.offset Config.strpclStop] ++ pollEvents answers)
        s.resp { s.ctrl with strpcl := Config.strpclStop } e t := by
  obtain ⟨rfl, ha⟩ := ha
  obtain ⟨t, hcall, hserving, hseq, hstk, _, ht⟩ := stopClock_waits h hl hv
  obtain ⟨u, hwait, hcu, hu⟩ := await_times_out_discarded hserving hseq (by rw [hstk]; exact hs) (ht.env ▸ ha) hf
  rw [ht.resp, ht.ctrl] at hu
  exact ⟨u, hcall.trans hwait, hcu, ht.trans hu⟩

end

/-! ### The steps of SET_RATE -/

section
variable {s t : State}

theorem procStep_setRate {l : SetRateLabel} (hl : s.ctl.seq = .setRate l) : procStep s = setRateStep s l := by
  rw [procStep, hl]

/-- An idle block with a quiet host accepts SETRATE and comes to the test of the rate, with `CRC_SUPP` cleared. -/
theorem setRate_accepts (hb : s.ctl.busy = false) (hq : s.host = []) :
    exec .setRate s = .next (accept (encode .setRate) (.setRate .sr0) s) ∧
      Serving (accept (encode .setRate) (.setRate .sr0) s) ∧
      ∃ t, Reaches (accept (encode .setRate) (.setRate .sr0) s) t ∧
        t.ctl = { seq := .setRate .sr1, stk := [], busy := true } ∧
        Performed (accept (encode .setRate) (.setRate .sr0) s) [] s.resp s.ctrl s.env t := by
  have hs : Serving (accept (encode .setRate) (.setRate .sr0) s) :=
    ⟨rfl, hq, accept_seqInv (i := .setRate) s (decodeOfEncode _)⟩
  exact ⟨exec_idle hb rfl, hs, _, ⟨1, run_serving hs⟩, rfl, {}⟩

/-- The code of a rate other than 0: the fast code for the fast rate, else the divider (R320, R322). -/
def clkrtCode (hz : Word) : Word :=
  if hz = Config.fastRateHz then Config.fastRateCode else (halvings (evenRatio hz)).div

theorem clkrtCode_fastRate : clkrtCode 26000000 = 7 := rfl

theorem clkrtCode_of_ne {hz : Word} (h : hz ≠ 26000000) : clkrtCode hz = (halvings (evenRatio hz)).div := if_neg h

/-- SR2 with the fast rate writes the fast code and goes to SR6 (R322). -/
theorem procStep_fastRate (hl : s.ctl.seq = .setRate .sr2) (hz : s.rq.hz = Config.fastRateHz) :
    procStep s = goto (.setRate .sr6) (regWrite .clkrt Config.fastRateCode s) :=
  (procStep_setRate hl).trans (if_pos hz)

/-- From SR2 the code of the rate is written to CLKRT, with no other transaction (R328). -/
theorem setRate_writes_code (h : Serving s) (hc : s.ctl = { seq := .setRate .sr2, stk := [], busy := true }) :
    ∃ t, Reaches s t ∧ t.ctl = { seq := .setRate .sr6, stk := [], busy := true } ∧
      Performed s [.write WriteReg.clkrt.offset (clkrtCode s.rq.hz)] s.resp { s.ctrl with clkrt := clkrtCode s.rq.hz }
        s.env t := by
  have hl : s.ctl.seq = .setRate .sr2 := by rw [hc]
  unfold clkrtCode
  split
  · rename_i hfast
    exact ⟨_, ⟨1, (run_serving h).trans (congrArg (run 0) (procStep_fastRate hl hfast))⟩, by simp [hc], {}⟩
  · rename_i hslow
    obtain ⟨run2, h3⟩ := run_serving_to (k := 3) h ((procStep_setRate hl).trans (if_neg hslow)) h.busy
    obtain ⟨run3, h4⟩ := run_serving_to (k := 2) h3 (procStep_setRate rfl) h.busy
    obtain ⟨run4, h5⟩ := run_serving_to (k := 1) h4 (procStep_setRate rfl) h.busy
    obtain ⟨run5, _⟩ := run_serving_to (k := 0) h5 (procStep_setRate rfl) h.busy
    exact ⟨_, ⟨4, run2.trans (run3.trans (run4.trans run5))⟩, by simp [setRateStep, hc], {}⟩

/-- SET_RATE with a rate other than 0 writes its code (R320). -/
theorem setRate_writes (h : Serving s) (hc : s.ctl = { seq := .setRate .sr1, stk := [], busy := true })
    (hz : s.rq.hz ≠ 0) :
    ∃ t, Reaches s t ∧ t.ctl = { seq := .setRate .sr6, stk := [], busy := true } ∧
      Performed s [.write WriteReg.clkrt.offset (clkrtCode s.rq.hz)] s.resp { s.ctrl with clkrt := clkrtCode s.rq.hz }
        s.env t := by
  have hstep : procStep s = goto (.setRate .sr2) s := (procStep_setRate (l := .sr1) (by rw [hc])).trans (if_neg hz)
  obtain ⟨hrun, h2⟩ := run_serving_to (k := 0) h hstep h.busy
  obtain ⟨t, hreach, hct, ht⟩ := setRate_writes_code h2 (by simp [hc])
  have hgoto : Performed s [] s.resp s.ctrl s.env (goto (.setRate .sr2) s) := {}
  exact ⟨t, Reaches.trans ⟨1, hrun⟩ hreach, hct, hgoto.trans ht⟩

/-- SET_RATE with rate 0 stops the clock, and comes to its end whether or not the clock stops (R321, R327). -/
theorem setRate_stops (h : Serving s) (hc : s.ctl = { seq := .setRate .sr1, stk := [], busy := true })
    (hz : s.rq.hz = 0) :
    ∃ x events e t, Reaches s t ∧ t.ctl = { seq := .setRate .sr6, stk := [], busy := true } ∧
      Performed s events s.resp { s.ctrl with strpcl := x } e t := by
  have hstep : procStep s = call (.stopClock .s0) (.setRate .sr6) s :=
    (procStep_setRate (l := .sr1) (by rw [hc])).trans (if_pos hz)
  obtain ⟨hrun, hs⟩ := run_serving_to (k := 0) h hstep h.busy
  have hcall : Performed s [] s.resp s.ctrl s.env (call (.stopClock .s0) (.setRate .sr6) s) := {}
  have hstk : (call (.stopClock .s0) (.setRate .sr6) s).ctl.stk = [.setRate .sr6] := by simp [hc]
  obtain ⟨answers, e, ha, hok | ⟨v, fails, rfl, hv, hf⟩⟩ := exists_stop_answers s.env
  · obtain ⟨x, t, hstop, hct, _, ht⟩ := stopClock_returns hs rfl hstk ha hok
    exact ⟨x, _, e, t, Reaches.trans ⟨1, hrun⟩ hstop, hct, hcall.trans ht⟩
  · obtain ⟨t, hstop, hct, ht⟩ := stopClock_times_out_discarded hs rfl (by rw [hstk]; rfl) ha hv hf
    exact ⟨_, _, e, t, Reaches.trans ⟨1, hrun⟩ hstop, hct, hcall.trans ht⟩

/-- At SR6 SET_RATE completes with Ok. -/
theorem setRate_completes (h : Serving s) (hreach : Reaches s t)
    (hc : t.ctl = { seq := .setRate .sr6, stk := [], busy := true }) : Reaches s (complete .ok none t) := by
  have hret : ret t = complete .ok none t := by rw [ret, hc]
  exact hreach.step h (by rw [hc]) ((procStep_setRate (l := .sr6) (by rw [hc])).trans hret)

end

/-- Settles O32: SR2's write of the fast code goes past the computation, and every code is one CLKRT write. -/
theorem setRateWritesClkrt : Obligations.SetRateWritesClkrt := by
  refine ⟨fun s h hl hz =>
    ⟨_, (step_serving h).trans (congrArg _ (procStep_fastRate hl hz)), rfl, rfl, rfl⟩, ?_⟩
  intro s hb hq hz
  obtain ⟨hexec, ha, t, hreach, hct, ht⟩ := setRate_accepts hb hq
  have hhz : t.rq.hz = s.port.hz := congrArg Latched.hz ht.rq
  obtain ⟨u, hwrites, hcu, hu⟩ := setRate_writes (hreach.serving ha (by rw [hct])) hct (hhz ▸ hz)
  rw [hhz, ht.resp, ht.ctrl, ht.env] at hu
  have hperformed := ht.trans hu
  obtain ⟨k, hrun⟩ := setRate_completes ha (hreach.trans hwrites) hcu
  refine ⟨_, k, _, hexec, hrun, rfl, by simp [hperformed.done], fun hfast => ?_, fun hslow => ?_, ?_,
    hperformed.resp, hperformed.mem, hperformed.env⟩
  · exact hperformed.ctrl.trans (by rw [hfast, clkrtCode_fastRate])
  · exact hperformed.ctrl.trans (by rw [clkrtCode_of_ne hslow])
  · simp [hperformed.trace, hperformed.ctrl, WriteReg.offset]

/-- Settles O33: rate 0 ends in the discarded stop, any other rate as `setRateWritesClkrt` says. -/
theorem setRateReportsNoError : Obligations.SetRateReportsNoError := by
  intro s hb hq
  by_cases hz : s.port.hz = 0
  · obtain ⟨hexec, ha, t, hreach, hct, ht⟩ := setRate_accepts hb hq
    obtain ⟨x, events, e, u, hstops, hcu, hu⟩ :=
      setRate_stops (hreach.serving ha (by rw [hct])) hct ((congrArg Latched.hz ht.rq).trans hz)
    rw [ht.resp, ht.ctrl] at hu
    have hperformed := ht.trans hu
    obtain ⟨k, hrun⟩ := setRate_completes ha (hreach.trans hstops) hcu
    exact ⟨_, k, _, hexec, hrun, rfl, by simp [hperformed.done], fun _ => by simp [hperformed.ctrl],
      hperformed.resp, hperformed.mem⟩
  · obtain ⟨s1, k, t, hexec, hrun, hctl, hdone, _, _, _, hresp, hmem, _⟩ := setRateWritesClkrt.2 s hb hq hz
    exact ⟨s1, k, t, hexec, hrun, hctl, hdone, (absurd · hz), hresp, hmem⟩

end Sys2Proof.Machine
end

section
/-! PROOFS. The frames of SETRATE and OPEN (spec/46_clock_rate.md R320, spec/47_open.md R350, R355). -/

namespace Sys2Proof.Machine

/-! ### The parts of the state that the two operations leave alone -/

/-- What a command alone writes, beside what a stop of the clock does. -/
structure CommandPart where
  resp : Response
  flags : Word
  asm : Reassembly
  res : List Word
  cmd : Word
  argh : Word
  argl : Word
  cmdat : Word

def State.commandPart (s : State) : CommandPart where
  resp := s.resp
  flags := s.flags
  asm := s.asm
  res := s.env.res
  cmd := s.ctrl.cmd
  argh := s.ctrl.argh
  argl := s.ctrl.argl
  cmdat := s.ctrl.cmdat

/-- What a stop of the clock leaves alone: all that a command writes or leaves alone. -/
def State.besideStop (s : State) : CommandPart × SystemPart × DataPart := (s.commandPart, s.besideCommand)

/-- What SETRATE leaves alone (R320): the divider registers and CLKRT are its own. -/
def State.besideSetRate (s : State) : CommandPart × DataPart × AllocDraw × HostInst × List AllocDraw × Word × Word :=
  (s.commandPart, s.dataPart, s.alloc, s.done.inst, s.env.alloc, s.ctrl.spi, s.ctrl.iMask)

/-- What OPEN leaves alone (R350): the draw, `INST`, SPI, RESTO and I_MASK are its own. -/
def State.besideOpen (s : State) :
    CommandPart × (Memory × Pump × List Word × List Byte) × (Word × Word × Word) × Divider × Word :=
  (s.commandPart, (s.mem, s.pump, s.env.rx, s.env.tx), (s.ctrl.nob, s.ctrl.blklen, s.ctrl.prtbuf), s.rate, s.ctrl.clkrt)

/-! ### STOP_CLOCK and AWAIT -/

section
variable {s t : State}

theorem besideSetRate_of_besideStop (h : t.besideStop = s.besideStop) : t.besideSetRate = s.besideSetRate :=
  congrArg (fun p => (p.1, p.2.2, p.2.1.alloc, p.2.1.inst, p.2.1.draws, p.2.1.spi, p.2.1.iMask)) h

theorem besideOpen_of_besideStop (h : t.besideStop = s.besideStop) : t.besideOpen = s.besideOpen :=
  congrArg (fun p => (p.1, (p.2.2.mem, p.2.2.pump, p.2.2.rx, p.2.2.tx), (p.2.2.nob, p.2.2.blklen, p.2.2.prtbuf),
    p.2.1.rate, p.2.1.clkrt)) h

end

/-- A STAT read takes no RES answer. -/
theorem consume_stat_res (e : Env) : (e.consume .stat).res = e.res := by
  unfold Env.consume
  split <;> rfl

theorem readStat_besideStop (s : State) : (readStat s).besideStop = s.besideStop := by
  refine Prod.ext ?_ (readStat_besideCommand s)
  simp [State.besideStop, State.commandPart, consume_stat_res]

theorem stopClockStep_besideStop (s : State) (l : StopClockLabel) :
    (stopClockStep s l).besideStop = s.besideStop := by
  cases l with
  | s0 => exact readStat_besideStop s
  | s1 => exact branch_keeps rfl ret_keeps
  | s2 | s3 => rfl
  | s4 => exact ret_keeps

theorem awaitStep_besideStop (s : State) (l : AwaitLabel) : (awaitStep s l).besideStop = s.besideStop := by
  cases l with
  | a0 | a4 => rfl
  | a1 => exact readStat_besideStop s
  | a2 => exact branch_keeps ret_keeps rfl
  | a3 => exact branch_keeps (raise_keeps _) rfl

/-! ### The operations -/

theorem setRateStep_besideSetRate (s : State) (l : SetRateLabel) :
    (setRateStep s l).besideSetRate = s.besideSetRate := by
  cases l with
  | sr0 | sr3 | sr4 | sr5 => rfl
  | sr1 | sr2 => exact branch_keeps rfl rfl
  | sr6 => exact ret_keeps

/-- OPEN's draw takes an answer of its own or a free value. -/
theorem openEntry_besideOpen (s : State) : (openEntry s).besideOpen = s.besideOpen := by
  have henv : s.env.consumeAlloc.res = s.env.res ∧ s.env.consumeAlloc.rx = s.env.rx ∧
      s.env.consumeAlloc.tx = s.env.tx := by
    unfold Env.consumeAlloc
    split <;> exact ⟨rfl, rfl, rfl⟩
  simp [State.besideOpen, State.commandPart, henv]

theorem openHostStep_besideOpen (s : State) (l : OpenLabel) : (openHostStep s l).besideOpen = s.besideOpen := by
  cases l with
  | o0 => exact branch_keeps ((raise_keeps _).trans (openEntry_besideOpen s)) (openEntry_besideOpen s)
  | o1 | o2 | o3 | o4 => rfl
  | o5 => exact branch_keeps (raise_keeps _) rfl
  | o6 => exact ret_keeps (s := s.setDone _)

/-- A step of SETRATE (R320). -/
theorem procStep_besideSetRate {s : State} (hr : inSetRate s.ctl.seq = true) :
    (procStep s).besideSetRate = s.besideSetRate := by
  cases hl : s.ctl.seq with
  | setRate l => simpa only [procStep, hl] using setRateStep_besideSetRate s l
  | stopClock l => simpa only [procStep, hl] using besideSetRate_of_besideStop (stopClockStep_besideStop s l)
  | await l => simpa only [procStep, hl] using besideSetRate_of_besideStop (awaitStep_besideStop s l)
  | idle | execute | startClock | issue | decode | readPump | writePump | openHost => rw [hl] at hr; cases hr

/-- A step of OPEN (R350). -/
theorem procStep_besideOpen {s : State} (hr : inOpenHost s.ctl.seq = true) :
    (procStep s).besideOpen = s.besideOpen := by
  cases hl : s.ctl.seq with
  | openHost l => simpa only [procStep, hl] using openHostStep_besideOpen s l
  | stopClock l => simpa only [procStep, hl] using besideOpen_of_besideStop (stopClockStep_besideStop s l)
  | await l => simpa only [procStep, hl] using besideOpen_of_besideStop (awaitStep_besideStop s l)
  | idle | execute | startClock | issue | decode | readPump | writePump | setRate => rw [hl] at hr; cases hr

theorem exec_setRate_besideSetRate {s t : State} (h : exec .setRate s = .next t) :
    t.besideSetRate = s.besideSetRate := by
  rcases exec_cases h with ⟨_, _, hr, rfl⟩ | ⟨_, _, rfl⟩
  · exact procStep_besideSetRate hr
  · rfl

theorem exec_openHost_besideOpen {s t : State} (h : exec .openHost s = .next t) : t.besideOpen = s.besideOpen := by
  rcases exec_cases h with ⟨_, _, hr, rfl⟩ | ⟨_, _, rfl⟩
  · exact procStep_besideOpen hr
  · rfl

/-- Settles O56: a step of either operation is its acceptance, a step of its own or one of the stop it calls. -/
theorem systemOperationsFrame : Obligations.SystemOperationsFrame := by
  rintro s t i (rfl | rfl) h
  all_goals obtain ⟨hport, hhost, hrq⟩ := exec_keeps h
  · have hbeside := exec_setRate_besideSetRate h
    simp only [State.besideSetRate, State.commandPart, State.dataPart, Prod.mk.injEq, CommandPart.mk.injEq,
      DataPart.mk.injEq] at hbeside
    obtain ⟨⟨hresp, hflags, hasm, hres, hcmd, hargh, hargl, hcmdat⟩,
      ⟨hmem, hpump, hrx, htx, hnob, hblklen, hresto, hprtbuf⟩, halloc, hinst, hdraws, hspi, hmask⟩ := hbeside
    exact ⟨hresp, hflags, hpump, hasm, hport, hhost, fun a => by rw [hmem], hres, hrx, htx, hcmd, hargh, hargl, hcmdat,
      hnob, hblklen, hprtbuf, hrq, nofun, fun _ => ⟨halloc, hinst, hspi, hresto, hmask, hdraws⟩⟩
  · have hbeside := exec_openHost_besideOpen h
    simp only [State.besideOpen, State.commandPart, Prod.mk.injEq, CommandPart.mk.injEq] at hbeside
    obtain ⟨⟨hresp, hflags, hasm, hres, hcmd, hargh, hargl, hcmdat⟩, ⟨hmem, hpump, hrx, htx⟩,
      ⟨hnob, hblklen, hprtbuf⟩, hrate, hclkrt⟩ := hbeside
    exact ⟨hresp, hflags, hpump, hasm, hport, hhost, fun a => by rw [hmem], hres, hrx, htx, hcmd, hargh, hargl, hcmdat,
      hnob, hblklen, hprtbuf, hrq, fun _ => ⟨hrate, hclkrt⟩, nofun⟩

end Sys2Proof.Machine
end

section
/-! PROOFS. OPEN's draw, from O0 to its test at O5 (spec/47_open.md R350, R354). -/

namespace Sys2Proof.Machine

/-! ### O0 alone writes the draw -/

/-- A step at any other label leaves OPEN's draw alone. -/
theorem procStep_alloc {s : State} (h : s.ctl.seq ≠ .openHost .o0) : (procStep s).alloc = s.alloc := by
  cases hl : s.ctl.seq with
  | idle => simp only [procStep, hl]
  | execute | stopClock | startClock | await | issue | decode | readPump =>
    exact congrArg (fun p => p.1.alloc) (procStep_besideRead (by rw [hl]; rfl))
  | writePump => exact congrArg (fun p => p.1.alloc) (procStep_besideWrite (by rw [hl]; rfl))
  | setRate => exact congrArg (fun p => p.2.2.1) (procStep_besideSetRate (by rw [hl]; rfl))
  | openHost l =>
    simp only [procStep, hl]
    cases l with
    | o0 => exact absurd hl h
    | o1 | o2 | o3 | o4 => rfl
    | o5 => exact branch_keeps (raise_keeps _) rfl
    | o6 => exact ret_keeps (s := s.setDone _)

/-! ### No step leads to O0 -/

/-- OPEN is a host operation itself, so nothing called it (R41). -/
theorem stk_of_openHost {s : State} {l : OpenLabel} (h : Serving s) (hl : s.ctl.seq = .openHost l) :
    s.ctl.stk = [] := by
  have hn := (own_of_seqInv h.busy h.inv).1
  cases hs : s.ctl.stk with
  | nil => rfl
  | cons => rw [hl, hs] at hn; cases hn

/-- OPEN's own steps lead on, to a call or to the end. -/
theorem openHostStep_ne_o0 {s : State} (hs : s.ctl.stk = []) (l : OpenLabel) :
    (openHostStep s l).ctl.seq ≠ .openHost .o0 := by
  cases l with
  | o0 | o5 =>
    simp only [openHostStep]
    split
    · rw [raise_of_uncaught _ (by simp [hs, catcher])]
      nofun
    · nofun
  | o1 | o2 | o3 | o4 => nofun
  | o6 => simp [openHostStep, ret, hs]

/-- No call is followed by O0. -/
theorem ne_o0_of_returnsTo {callee back : Label} (h : callee.returnsTo back = true) : back ≠ .openHost .o0 := by
  rintro rfl
  cases callee <;> cases h

/-- No other procedure's step leads to O0. -/
theorem ne_o0_of_seqMove {l : Label} {s t : State} (hn : nested s.ctl.seq s.ctl.stk = true)
    (hl : ∀ o, l ≠ .openHost o) (hm : SeqMove l s t) : t.ctl.seq ≠ .openHost .o0 := by
  cases hm with
  | goto same _ hc =>
    rw [hc]
    cases same with
    | openHost o => exact absurd rfl (hl o)
    | _ => nofun
  | call _ entry _ _ hc =>
    rw [hc]
    rintro rfl
    cases entry
  | ret hc =>
    rw [hc]
    rcases ret_cases s with ⟨_, he⟩ | ⟨back, stk, hs, he⟩ <;> rw [he]
    · nofun
    · rw [hs, nested, Bool.and_eq_true] at hn
      exact ne_o0_of_returnsTo hn.1
  | raise e hc =>
    rw [hc]
    rcases raise_cases e s with ⟨_, he⟩ | ⟨back, stk, hs, he⟩ <;> rw [he]
    · nofun
    · rw [(catcher_some hs).1]
      nofun

/-- A serving block does not come to O0 but by acceptance. -/
theorem procStep_ne_o0 {s : State} (h : Serving s) : (procStep s).ctl.seq ≠ .openHost .o0 := by
  by_cases hopen : ∃ l, s.ctl.seq = .openHost l
  · obtain ⟨l, hl⟩ := hopen
    simpa only [procStep, hl] using openHostStep_ne_o0 (stk_of_openHost h hl) l
  · exact ne_o0_of_seqMove (own_of_seqInv h.busy h.inv).1 (not_exists.mp hopen)
      (procStep_move (seq_ne_idle h.busy h.inv))

/-- Past O0 the draw stays as long as the host is quiet. -/
theorem reaches_alloc {s t : State} (h : Serving s) (hl : s.ctl.seq ≠ .openHost .o0) (hreach : Reaches s t) :
    t.alloc = s.alloc := by
  obtain ⟨k, hrun⟩ := hreach
  refine (run_induction (P := fun u => u.alloc = s.alloc ∧ u.ctl.seq ≠ .openHost .o0) ?_ h.quiet h.inv
    ⟨rfl, hl⟩ hrun).1
  exact fun u hu ⟨halloc, hne⟩ => ⟨(procStep_alloc hne).trans halloc, procStep_ne_o0 hu⟩

end Sys2Proof.Machine
end

section
/-! PROOFS. OPEN from its acceptance to its completion (spec/47_open.md R350 to R354). -/

namespace Sys2Proof.Machine

/-- The configuration writes of OPEN, in time order (R352). -/
def openEvents : List Event :=
  [.write WriteReg.spi.offset Config.spiDisableValue, .write WriteReg.resto.offset Config.restoMax,
    .write WriteReg.iMask.offset Config.iMaskOpenValue]

theorem openEvents_eq : openEvents = [.write 0x0C 0x0, .write 0x14 0x7F, .write 0x28 0x60] := rfl

/-- The controller's registers after the configuration writes of OPEN (R352). -/
def CtrlRegs.configured (c : CtrlRegs) : CtrlRegs :=
  { c with spi := Config.spiDisableValue, resto := Config.restoMax, iMask := Config.iMaskOpenValue }

/-- The configuration writes do not touch CLKRT (R355). -/
@[simp] theorem configured_clkrt (c : CtrlRegs) : c.configured.clkrt = c.clkrt := rfl

/-- OPEN is accepted: the block serves it from its first label, with `CRC_SUPP` cleared (R110, R50). -/
structure OpenAccepted (a : State) : Prop where
  serving : Serving a
  ctl : a.ctl = { seq := .openHost .o0, stk := [], busy := true }
  crcSupp : a.done.crcSupp = false

/-- An idle block with a quiet host accepts OPEN. -/
theorem openHost_accepts {s : State} (hb : s.ctl.busy = false) (hq : s.host = []) :
    exec .openHost s = .next (accept (encode .openHost) (.openHost .o0) s) ∧
      OpenAccepted (accept (encode .openHost) (.openHost .o0) s) :=
  ⟨exec_idle hb rfl, ⟨rfl, hq, accept_seqInv (i := .openHost) s (decodeOfEncode _)⟩, rfl, rfl⟩

theorem procStep_openHost {s : State} {l : OpenLabel} (hl : s.ctl.seq = .openHost l) :
    procStep s = openHostStep s l := by
  rw [procStep, hl]

section
variable {a s t : State} {v : Word} {stop fails : List Word} {e : Env}

/-! ### The steps of OPEN -/

/-- The entry of OPEN performs the draw alone: `CRC_SUPP` was cleared by the acceptance. -/
theorem performed_openEntry (h : OpenAccepted a) : Performed a [] a.resp a.ctrl a.env.consumeAlloc (openEntry a) where
  done := by
    show ({ a.done with crcSupp := false } : Completion) = a.done
    rw [← h.crcSupp]

/-- An OPEN that does not fail at entry calls STOP_CLOCK (R350). -/
theorem openHost_calls_stopClock (h : OpenAccepted a) (hdraw : allocValue a ≠ .failAtEntry) :
    ∃ t, Reaches a t ∧ Serving t ∧ t.ctl = { seq := .stopClock .s0, stk := [.openHost .o2], busy := true } ∧
      t.alloc = allocValue a ∧ Performed a [] a.resp a.ctrl a.env.consumeAlloc t := by
  have hentry : procStep a = goto (.openHost .o1) (openEntry a) :=
    (procStep_openHost (l := .o0) (by rw [h.ctl])).trans (if_neg hdraw)
  obtain ⟨run0, h1⟩ := run_serving_to (k := 1) h.serving hentry h.serving.busy
  obtain ⟨run1, h2⟩ := run_serving_to (k := 0) h1 (procStep_openHost rfl) h.serving.busy
  exact ⟨_, ⟨2, run0.trans run1⟩, h2, by simp [openHostStep, h.ctl], rfl, (performed_openEntry h).setCtl _⟩

/-- From O2 OPEN makes its configuration writes, in the order of R352. -/
theorem openHost_configures (h : Serving s) (hc : s.ctl = { seq := .openHost .o2, stk := [], busy := true }) :
    ∃ t, Reaches s t ∧ t.ctl = { seq := .openHost .o5, stk := [], busy := true } ∧ t.alloc = s.alloc ∧
      Performed s openEvents s.resp s.ctrl.configured s.env t := by
  obtain ⟨run2, h3⟩ := run_serving_to (k := 2) h (procStep_openHost (l := .o2) (by rw [hc])) h.busy
  obtain ⟨run3, h4⟩ := run_serving_to (k := 1) h3 (procStep_openHost rfl) h.busy
  obtain ⟨run4, _⟩ := run_serving_to (k := 0) h4 (procStep_openHost rfl) h.busy
  exact ⟨_, ⟨3, run2.trans (run3.trans run4)⟩, by simp [openHostStep, hc], rfl, {}⟩

/-- A clock that stops lets OPEN come to its second test of the draw, with the controller configured. -/
theorem openHost_reaches_test (h : OpenAccepted a) (hdraw : allocValue a ≠ .failAtEntry)
    (ha : a.env.consumeAlloc.Answers stop e) (hok : StopOk stop) :
    ∃ x t, Reaches a t ∧ t.ctl = { seq := .openHost .o5, stk := [], busy := true } ∧ t.alloc = allocValue a ∧
      Performed a (stopEvents stop ++ openEvents) a.resp { a.ctrl with strpcl := x }.configured e t := by
  obtain ⟨t, hcall, hs, hct, halloc, ht⟩ := openHost_calls_stopClock h hdraw
  obtain ⟨x, u, hstop, hcu, _, hu⟩ := stopClock_returns hs (by rw [hct]) (by rw [hct]) (ht.env ▸ ha) hok
  obtain ⟨w, hconfig, hcw, halloc', hw⟩ := openHost_configures (hstop.serving hs (by rw [hcu])) hcu
  have hkept : u.alloc = t.alloc := reaches_alloc hs (by rw [hct]; nofun) hstop
  rw [ht.resp, ht.ctrl] at hu
  rw [hu.resp, hu.ctrl, hu.env] at hw
  exact ⟨x, w, (hcall.trans hstop).trans hconfig, hcw, halloc'.trans (hkept.trans halloc), (ht.trans hu).trans hw⟩

/-! ### The four ends of OPEN -/

/-- A draw that fails at entry ends OPEN before any transaction (R354). -/
theorem openHost_fails_at_entry (h : OpenAccepted a) (hdraw : allocValue a = .failAtEntry) :
    ∃ t, Reaches a (complete .allocationFailure none t) ∧ Performed a [] a.resp a.ctrl a.env.consumeAlloc t := by
  have hraise : procStep a = raise .allocationFailure (openEntry a) :=
    (procStep_openHost (l := .o0) (by rw [h.ctl])).trans (if_pos hdraw)
  rw [raise_of_uncaught _ (by simp [h.ctl, catcher])] at hraise
  exact ⟨_, ⟨1, (run_serving h.serving).trans (congrArg (run 0) hraise)⟩, performed_openEntry h⟩

/-- A clock that stays on ends OPEN with no configuration write (R351). -/
theorem openHost_stop_times_out (h : OpenAccepted a) (hdraw : allocValue a ≠ .failAtEntry)
    (ha : a.env.consumeAlloc.Answers (v :: fails) e) (hv : bitSet v bitClkEn = true)
    (hf : PollFails (bitMask bitClkEn) .clear fails) :
    ∃ t, Reaches a (complete .timeout (some .clkStop) t) ∧
      Performed a ([.read ReadReg.stat.offset v, .write WriteReg.strpcl.offset Config.strpclStop] ++ pollEvents fails)
        a.resp { a.ctrl with strpcl := Config.strpclStop } e t := by
  obtain ⟨t, hcall, hs, hct, _, ht⟩ := openHost_calls_stopClock h hdraw
  obtain ⟨u, hstop, hu⟩ := stopClock_times_out hs (by rw [hct]) (by rw [hct]; rfl) (ht.env ▸ ha) hv hf
  rw [ht.resp, ht.ctrl] at hu
  exact ⟨u, hcall.trans hstop, ht.trans hu⟩

/-- A draw that fails at exit ends OPEN after the configuration writes (R354). -/
theorem openHost_fails_at_exit (h : OpenAccepted a) (hdraw : allocValue a = .failAtExit)
    (ha : a.env.consumeAlloc.Answers stop e) (hok : StopOk stop) :
    ∃ x t, Reaches a (complete .allocationFailure none t) ∧
      Performed a (stopEvents stop ++ openEvents) a.resp { a.ctrl with strpcl := x }.configured e t := by
  obtain ⟨x, t, hreach, hct, halloc, ht⟩ := openHost_reaches_test h (by rw [hdraw]; nofun) ha hok
  have hraise : procStep t = raise .allocationFailure t :=
    (procStep_openHost (l := .o5) (by rw [hct])).trans (if_pos (halloc.trans hdraw))
  rw [raise_of_uncaught _ (by simp [hct, catcher])] at hraise
  exact ⟨x, t, hreach.step h.serving (by rw [hct]) hraise, ht⟩

/-- An OPEN that meets no failure returns `INST` after the configuration writes (R352, R353). -/
theorem openHost_completes (h : OpenAccepted a) (hdraw : allocValue a = .none)
    (ha : a.env.consumeAlloc.Answers stop e) (hok : StopOk stop) :
    ∃ x t, Reaches a (complete .ok none (t.setDone { t.done with inst := openInst })) ∧
      Performed a (stopEvents stop ++ openEvents) a.resp { a.ctrl with strpcl := x }.configured e t := by
  obtain ⟨x, t, hreach, hct, halloc, ht⟩ := openHost_reaches_test h (by rw [hdraw]; nofun) ha hok
  have hstep : procStep t = goto (.openHost .o6) t :=
    (procStep_openHost (l := .o5) (by rw [hct])).trans (if_neg (by rw [halloc, hdraw]; nofun))
  have hret : openHostStep (goto (.openHost .o6) t) .o6 =
      complete .ok none (t.setDone { t.done with inst := openInst }) := by
    simp only [openHostStep, ret, State.setDone, goto_fields, hct]
    rfl
  have hreach := hreach.step h.serving (by rw [hct]) hstep
  exact ⟨x, t, hreach.step h.serving (by simp [hct]) ((procStep_openHost (l := .o6) rfl).trans hret), ht⟩

/-! ### A draw that a pending answer meets -/

section
variable {d : AllocDraw} {allocs : List AllocDraw}

/-- The draw takes the oldest pending answer. -/
theorem allocValue_of_pending (h : s.env.alloc = d :: allocs) : allocValue s = d := by
  simp only [allocValue, h]

theorem consumeAlloc_of_pending (h : e.alloc = d :: allocs) : e.consumeAlloc = { e with alloc := allocs } := by
  simp only [Env.consumeAlloc, h]

/-- The draw leaves the STAT answers to the stop. -/
theorem answers_after_draw {rest : List Word} (h : e.alloc = d :: allocs) (hstat : e.stat = stop ++ rest) :
    e.consumeAlloc.Answers stop { e with stat := rest, alloc := allocs } := by
  rw [consumeAlloc_of_pending h]
  exact answers_of_pending hstat

end

end

/-! ### The statements -/

/-- Settles O34: the stop returns, the three writes follow, and the draw tested at O5 is the one of O0. -/
theorem openConfiguresController : Obligations.OpenConfiguresController := by
  intro s stop rest allocs hb hq halloc hstat hok
  obtain ⟨hexec, ha⟩ := openHost_accepts hb hq
  obtain ⟨x, t, ⟨k, hrun⟩, ht⟩ := openHost_completes ha (allocValue_of_pending halloc)
    (answers_after_draw halloc hstat) hok
  exact ⟨_, k, _, hexec, hrun, rfl, by simp [ht.done, openInst, Config.fMin, Config.fMax],
    by simp [ht.trace, openEvents_eq], congrArg CtrlRegs.spi ht.ctrl, congrArg CtrlRegs.resto ht.ctrl,
    congrArg CtrlRegs.iMask ht.ctrl, ht.env, ht.resp, ht.mem⟩

/-- Settles O35: the draw of O0 is tested there and, kept by the stop and the writes, at O5; `INST` is written at O6
alone. -/
theorem openAllocationFailure : Obligations.OpenAllocationFailure := by
  intro s allocs hb hq
  obtain ⟨hexec, ha⟩ := openHost_accepts hb hq
  constructor
  · intro halloc
    obtain ⟨t, ⟨k, hrun⟩, ht⟩ := openHost_fails_at_entry ha (allocValue_of_pending halloc)
    exact ⟨_, k, _, hexec, hrun, rfl, by simp [ht.done], ht.trace, ht.ctrl,
      ht.env.trans (consumeAlloc_of_pending halloc)⟩
  · intro stop rest halloc hstat hok
    obtain ⟨x, t, ⟨k, hrun⟩, ht⟩ := openHost_fails_at_exit ha (allocValue_of_pending halloc)
      (answers_after_draw halloc hstat) hok
    exact ⟨_, k, _, hexec, hrun, rfl, by simp [ht.done], by simp [ht.trace, openEvents_eq], ht.env⟩

/-- Settles O36: the Timeout of STOP_CLOCK has no caller that discards it, so the writes after the call are not
reached. -/
theorem stuckClockFailsOpen : Obligations.StuckClockFailsOpen := by
  intro s v answers rest d allocs hb hq halloc hne hstat hv hf
  obtain ⟨hexec, ha⟩ := openHost_accepts hb hq
  obtain ⟨t, ⟨k, hrun⟩, ht⟩ := openHost_stop_times_out ha ((allocValue_of_pending halloc).trans_ne hne)
    (answers_after_draw halloc hstat) hv (mask_clkEn ▸ hf)
  exact ⟨_, k, _, hexec, hrun, rfl, by simp [ht.done], ht.ctrl,
    by simp [ht.trace, ReadReg.offset, WriteReg.offset, Config.strpclStop]⟩

/-- Settles O37: any draw and any answers to the stop lead to one of the four ends. -/
theorem openCompletesInEveryEnvironment : Obligations.OpenCompletesInEveryEnvironment := by
  intro s hb hq
  obtain ⟨hexec, ha⟩ := openHost_accepts hb hq
  by_cases hentry : allocValue s = .failAtEntry
  · obtain ⟨t, ⟨k, hrun⟩, ht⟩ := openHost_fails_at_entry ha hentry
    exact ⟨_, k, _, hexec, hrun, rfl, ht.resp, ht.mem, by simp [ht.ctrl], by simp [ht.done],
      .inr (.inr ⟨rfl, rfl, by simp [ht.done]⟩)⟩
  obtain ⟨stop, e, hanswers, hok | ⟨v, fails, rfl, hv, hf⟩⟩ := exists_stop_answers s.env.consumeAlloc
  case inr =>
    obtain ⟨t, ⟨k, hrun⟩, ht⟩ := openHost_stop_times_out ha hentry hanswers hv hf
    exact ⟨_, k, _, hexec, hrun, rfl, ht.resp, ht.mem, by simp [ht.ctrl], by simp [ht.done],
      .inr (.inl ⟨rfl, rfl, by simp [ht.done]⟩)⟩
  cases hdraw : allocValue s with
  | none =>
    obtain ⟨x, t, ⟨k, hrun⟩, ht⟩ := openHost_completes ha hdraw hanswers hok
    exact ⟨_, k, _, hexec, hrun, rfl, ht.resp, ht.mem, by simp [ht.ctrl], by simp [ht.done],
      .inl ⟨rfl, rfl, rfl⟩⟩
  | failAtEntry => exact absurd hdraw hentry
  | failAtExit =>
    obtain ⟨x, t, ⟨k, hrun⟩, ht⟩ := openHost_fails_at_exit ha hdraw hanswers hok
    exact ⟨_, k, _, hexec, hrun, rfl, ht.resp, ht.mem, by simp [ht.ctrl], by simp [ht.done],
      .inr (.inr ⟨rfl, rfl, by simp [ht.done]⟩)⟩

end Sys2Proof.Machine
end

section
/-! PROOFS. Reset, and DECODE's timeout test (spec/70_reset_and_hazards.md R420, R421, spec/60_exceptions.md R382). -/

namespace Sys2Proof.Machine

/-- Settles O5: the reset input is a step of its own, which replaces the block's registers alone. -/
theorem resetLeavesIdle : Obligations.ResetLeavesIdle := by
  refine ⟨rfl, rfl, fun s rest hh => ⟨blockReset (s.setHost rest), ?_, rfl, rfl, rfl, rfl, rfl, rfl, rfl⟩⟩
  simp only [step, machineStep, hh]

/-- DECODE raises the response timeout when its status shows one (R382). -/
theorem decodeStep_dc1_of_timeout {s : State} (h : bitSet s.snap bitTimeOutResponse = true) :
    decodeStep s .dc1 = raise (.timeout .respTimeout) s := if_pos h

/-- Settles O16: DECODE's one read selects the raise at DC1, and EXECUTE, its caller, discards no error. -/
theorem responseTimeoutReadsNothing : Obligations.ResponseTimeoutReadsNothing := by
  intro s v rest h hl hstat hv
  have hstk := stk_of_decode h hl
  have timeout : bitSet (decodeStep s .dc0).snap bitTimeOutResponse = true := by
    rw [← hv, ← readValue_stat hstat]
    rfl
  have uncaught : catcher (decodeStep s .dc0).ctl.stk = none := by simp [decodeStep, hstk, catcher, discards]
  obtain ⟨run0, h1⟩ := run_serving_to (k := 1) h (procStep_decode hl) h.busy
  have hrun : run 2 s = .next (complete .timeout (some .respTimeout) (decodeStep s .dc0)) := by
    rw [run0, run_serving h1, procStep_decode rfl, decodeStep_dc1_of_timeout timeout, raise_of_uncaught _ uncaught]
    rfl
  refine ⟨_, hrun, rfl, rfl, ?_, consume_stat hstat, rfl, rfl⟩
  rw [← readValue_stat hstat]
  rfl

end Sys2Proof.Machine
end

section
/-! PROOFS. The completion step: which label ends an operation with which result, and what it leaves alone
(spec/60_exceptions.md R380 to R387). -/

namespace Sys2Proof.Machine

/-! ### How each label ends an operation -/

/-- The error that a label raises, if it raises one (R380 to R384; R150, R210, R241, R242, R350). -/
def State.raisedAt (s : State) : Label → Option Err
  | .await .a3 => some (.timeout s.poll.psite)
  | .decode .dc1 => some (.timeout .respTimeout)
  | .decode .dc11 => some .responseCrcMismatch
  | .readPump .p6 | .writePump .w7 => some .transferIoError
  | .openHost .o0 | .openHost .o5 => some .allocationFailure
  | _ => none

/-- What a label does to the state before it returns or raises. -/
def State.closingAt (s : State) : Label → State
  | .decode .dc10 => s.setDone { s.done with crcSupp := true }
  | .openHost .o0 => openEntry s
  | .openHost .o6 => s.setDone { s.done with inst := openInst }
  | _ => s

/-- The `RESULT` of an operation that ends with this error, or with none (R117, R380). -/
def resultOf : Option Err → Result
  | none => .ok
  | some e => e.result

/-- The completed operation, where the label ends it (R387). -/
def State.completedAt (s : State) (l : Label) : State :=
  complete (resultOf (s.raisedAt l)) ((s.raisedAt l).bind Err.site) (s.closingAt l)

/-- What the step at `l` does to the operation: it goes on, or is completed. -/
inductive EndMove (l : Label) (s t : State) : Prop where
  | goesOn (busy : t.ctl.busy = s.ctl.busy := by rfl)
  | ends (eq : t = s.completedAt l)

namespace EndMove

variable {l : Label} {s t u : State}

/-- A test ends nothing itself. -/
theorem branch {c : Prop} [Decidable c] (ht : EndMove l s t) (hu : EndMove l s u) :
    EndMove l s (if c then t else u) := by
  split
  · exact ht
  · exact hu

/-- A return goes on in the caller or completes the operation with Ok. -/
theorem returns (busy : t.ctl.busy = s.ctl.busy := by rfl) (eq : complete .ok none t = s.completedAt l := by rfl) :
    EndMove l s (Machine.ret t) := by
  rcases ret_cases t with ⟨_, h⟩ | ⟨_, _, _, h⟩ <;> rw [h]
  · exact .ends eq
  · exact .goesOn busy

/-- A raise goes on in the caller that discards the error or completes the operation with it. -/
theorem raises {e : Err} (busy : t.ctl.busy = s.ctl.busy := by rfl)
    (eq : complete e.result e.site t = s.completedAt l := by rfl) : EndMove l s (Machine.raise e t) := by
  rcases raise_cases e t with ⟨_, h⟩ | ⟨_, _, _, h⟩ <;> rw [h]
  · exact .ends eq
  · exact .goesOn busy

end EndMove

open EndMove

theorem executeStep_endMove (s : State) (l : ExecuteLabel) : EndMove (.execute l) s (executeStep s l) := by
  cases l with
  | e0 | e1 | e2Blklen | e2Resto | e3 | e4 | e5 | e6 => exact goesOn
  | e2 => exact branch goesOn goesOn
  | e7 => exact branch (branch goesOn goesOn) goesOn
  | e8 => exact returns

theorem stopClockStep_endMove (s : State) (l : StopClockLabel) : EndMove (.stopClock l) s (stopClockStep s l) := by
  cases l with
  | s0 | s2 | s3 => exact goesOn
  | s1 => exact branch goesOn returns
  | s4 => exact returns

theorem startClockStep_endMove (s : State) (l : StartClockLabel) :
    EndMove (.startClock l) s (startClockStep s l) := by
  cases l with
  | t0 | t1 => exact goesOn
  | t2 => exact returns

theorem awaitStep_endMove (s : State) (l : AwaitLabel) : EndMove (.await l) s (awaitStep s l) := by
  cases l with
  | a0 | a1 | a4 => exact goesOn
  | a2 => exact branch returns goesOn
  | a3 => exact branch raises goesOn

theorem issueStep_endMove (s : State) (l : IssueLabel) : EndMove (.issue l) s (issueStep s l) := by
  cases l with
  | i0 | i1 | i2 | i3 | i4 | i5 | i6 => exact goesOn
  | i7 => exact returns

theorem decodeStep_endMove (s : State) (l : DecodeLabel) : EndMove (.decode l) s (decodeStep s l) := by
  cases l with
  | dc0 | dc2 | dc3 | dc4 | dc5 | dc6 | dc7 => exact goesOn
  | dc1 => exact branch raises goesOn
  | dc8 | dc9 => exact branch goesOn goesOn
  | dc10 => exact branch returns goesOn
  | dc11 => exact raises
  | dc12 => exact returns

theorem readPumpStep_endMove (s : State) (l : ReadPumpLabel) : EndMove (.readPump l) s (readPumpStep s l) := by
  cases l with
  | p0 | p2 | p4Store | p5 | p7 | p8 => exact goesOn
  | p1 | p3 | p4 => exact branch goesOn goesOn
  | p6 => exact branch raises goesOn
  | p9 => exact returns

theorem writePumpStep_endMove (s : State) (l : WritePumpLabel) :
    EndMove (.writePump l) s (writePumpStep s l) := by
  cases l with
  | w0 | w2 | w4Send | w6 | w8 | w9 | w10 => exact goesOn
  | w1 | w3 | w4 => exact branch goesOn goesOn
  | w5 => rcases signalPartial_cases s with ⟨_, h⟩ | ⟨_, h⟩ <;> simp only [writePumpStep, h] <;> exact goesOn
  | w7 => exact branch raises goesOn
  | w11 => exact returns

theorem setRateStep_endMove (s : State) (l : SetRateLabel) : EndMove (.setRate l) s (setRateStep s l) := by
  cases l with
  | sr0 | sr3 | sr4 | sr5 => exact goesOn
  | sr1 | sr2 => exact branch goesOn goesOn
  | sr6 => exact returns

theorem openHostStep_endMove (s : State) (l : OpenLabel) : EndMove (.openHost l) s (openHostStep s l) := by
  cases l with
  | o1 | o2 | o3 | o4 => exact goesOn
  | o0 | o5 => exact branch raises goesOn
  | o6 => exact returns

/-- A step of a procedure lets the operation go on or completes it. -/
theorem procStep_endMove (s : State) : EndMove s.ctl.seq s (procStep s) := by
  unfold procStep
  split <;> rename_i hl <;> rw [hl]
  · exact goesOn
  · exact executeStep_endMove s _
  · exact stopClockStep_endMove s _
  · exact startClockStep_endMove s _
  · exact awaitStep_endMove s _
  · exact issueStep_endMove s _
  · exact decodeStep_endMove s _
  · exact readPumpStep_endMove s _
  · exact writePumpStep_endMove s _
  · exact setRateStep_endMove s _
  · exact openHostStep_endMove s _

/-- A step of a procedure that ends the operation completes it as its label does. -/
theorem procStep_completes {s : State} (hb : s.ctl.busy = true) (he : (procStep s).ctl.busy = false) :
    procStep s = s.completedAt s.ctl.seq := by
  cases procStep_endMove s with
  | goesOn busy => exact absurd ((busy.trans hb).symm.trans he) nofun
  | ends eq => exact eq

/-- Short of the reset input, a step that ends the operation is the step at SEQ. -/
theorem step_completes {s t : State} (hb : s.ctl.busy = true) (hr : ∀ rest, s.host ≠ .reset :: rest)
    (h : step s = .next t) (he : t.ctl.busy = false) :
    ∃ hs, t = procStep (s.setHost hs) ∧ t = (s.setHost hs).completedAt s.ctl.seq := by
  obtain ⟨hs, ⟨hn, _⟩ | ⟨_, rfl, _⟩ | ⟨hn, _⟩ | ⟨hh, _⟩ | ⟨a, v, _, _, rfl⟩⟩ := step_cases h
  · exact absurd (hb.symm.trans hn) nofun
  · exact ⟨hs, rfl, procStep_completes (s := s.setHost hs) hb he⟩
  · exact absurd (hb.symm.trans hn) nofun
  · exact absurd hh (hr hs)
  · exact absurd (hb.symm.trans he) nofun

/-! ### What a completion leaves alone -/

/-- What a label does before it completes an operation is no bus or buffer access. -/
theorem closingAt_keeps (s : State) (l : Label) :
    (s.closingAt l).trace = s.trace ∧ (s.closingAt l).mem = s.mem ∧ (s.closingAt l).resp = s.resp ∧
      (s.closingAt l).ctrl = s.ctrl := by
  unfold State.closingAt
  split <;> exact ⟨rfl, rfl, rfl, rfl⟩

/-- OPEN's entry alone consumes an answer, DC10 and OPEN's entry alone write `CRC_SUPP`. -/
theorem closingAt_of_ne_o0 {s : State} {l : Label} (ho : l ≠ .openHost .o0) (hd : l ≠ .decode .dc10) :
    (s.closingAt l).done.crcSupp = s.done.crcSupp ∧ (s.closingAt l).env = s.env := by
  unfold State.closingAt
  split
  · exact absurd rfl hd
  · exact absurd rfl ho
  · exact ⟨rfl, rfl⟩
  · exact ⟨rfl, rfl⟩

/-- O6 alone writes `INST` (R352). -/
theorem closingAt_inst (s : State) (l : Label) :
    (s.closingAt l).done.inst = s.done.inst ∨ ((s.closingAt l).done.inst = openInst ∧ l = .openHost .o6) := by
  unfold State.closingAt
  split
  · exact .inl rfl
  · exact .inl rfl
  · exact .inr ⟨rfl, rfl⟩
  · exact .inl rfl

/-- A completion names a site exactly when its result is Timeout (R117). -/
theorem site_resultOf (e : Option Err) : e.bind Err.site = none ↔ resultOf e ≠ .timeout := by
  cases e with
  | none => simp [resultOf]
  | some e => exact site_eq_none_iff e

/-- DC10 ends no operation: DECODE returns to EXECUTE (R280). -/
theorem procStep_dc10_busy {s : State} (hb : s.ctl.busy = true) (hi : seqInv s = true)
    (hl : s.ctl.seq = .decode .dc10) : (procStep s).ctl.busy = true := by
  have hn := (own_of_seqInv hb hi).1
  rw [hl] at hn
  rw [procStep_decode hl, decodeStep]
  split
  · rcases ret_cases (s.setDone { s.done with crcSupp := true }) with ⟨hs, _⟩ | ⟨back, stk, _, hret⟩
    · rw [show s.ctl.stk = [] from hs] at hn
      cases hn
    · rw [hret]
      exact hb
  · exact hb

/-- Settles O48: a completing step is the completion of its label's own state, where OPEN's first and last label, and no
other that can end an operation in order, have written something. -/
theorem completionIsPrecise : Obligations.CompletionIsPrecise := by
  intro s t hi hb hr h he
  obtain ⟨hs, ht, hc⟩ := step_completes hb hr h he
  have hd : s.ctl.seq ≠ .decode .dc10 := fun hl =>
    have busy : t.ctl.busy = true := ht ▸ procStep_dc10_busy (s := s.setHost hs) hb hi hl
    absurd (busy.symm.trans he) nofun
  obtain ⟨htrace, hmem, hresp, hctrl⟩ := closingAt_keeps (s.setHost hs) s.ctl.seq
  subst hc
  refine ⟨rfl, htrace, hmem, hresp, hctrl, fun ho => closingAt_of_ne_o0 ho hd, fun ho => ?_, site_resultOf _, ?_⟩
  · rw [ho]
    exact ⟨rfl, rfl⟩
  · rcases closingAt_inst (s.setHost hs) s.ctl.seq with hinst | ⟨hinst, hl⟩
    · exact .inl hinst
    · exact .inr ⟨by rw [hl]; rfl, hinst, hl⟩

/-! ### Which label gives which result -/

/-- The labels that give each result but Ok. -/
theorem resultOf_raisedAt_iff (s : State) (l : Label) :
    (resultOf (s.raisedAt l) = .timeout ↔ l = .await .a3 ∨ l = .decode .dc1) ∧
    (resultOf (s.raisedAt l) = .responseCrcMismatch ↔ l = .decode .dc11) ∧
    (resultOf (s.raisedAt l) = .transferIoError ↔ l = .readPump .p6 ∨ l = .writePump .w7) ∧
    (resultOf (s.raisedAt l) = .allocationFailure ↔ l = .openHost .o0 ∨ l = .openHost .o5) := by
  unfold State.raisedAt
  split <;> simp_all [resultOf, Err.result]

/-- A poll that ends an operation at A3 has read STAT `POLL_MAX` times (R152). -/
theorem pcnt_of_a3_ends {s : State} (hb : s.ctl.busy = true) (hl : s.ctl.seq = .await .a3)
    (he : (procStep s).ctl.busy = false) : s.poll.pcnt.toNat = Config.pollMax := by
  by_contra hne
  have hstep : procStep s = goto (.await .a4) s := by
    rw [procStep, hl]
    exact if_neg hne
  rw [hstep] at he
  exact absurd (hb.symm.trans he) nofun

/-- DECODE ends an operation at DC1 when its status shows the response timeout (R382). -/
theorem timeout_of_dc1_ends {s : State} (hb : s.ctl.busy = true) (hl : s.ctl.seq = .decode .dc1)
    (he : (procStep s).ctl.busy = false) : bitSet s.snap bitTimeOutResponse = true := by
  by_contra hne
  rw [procStep_decode hl, decodeStep_dc1_of_answered (Bool.eq_false_iff.mpr hne)] at he
  exact absurd (hb.symm.trans he) nofun

/-- Settles O49: a completing step records the error of its label, and the tests at A3 and DC1 go on where they do not
raise. -/
theorem errorsAriseOnlyAtTheirSteps : Obligations.ErrorsAriseOnlyAtTheirSteps := by
  intro s t hb hr h he
  obtain ⟨hs, ht, hc⟩ := step_completes hb hr h he
  have hends : (procStep (s.setHost hs)).ctl.busy = false := ht ▸ he
  obtain ⟨timeout, mismatch, ioError, allocation⟩ := resultOf_raisedAt_iff (s.setHost hs) s.ctl.seq
  subst hc
  refine ⟨timeout, fun hl => ⟨pcnt_of_a3_ends (s := s.setHost hs) hb hl hends, ?_⟩,
    fun hl => ⟨timeout_of_dc1_ends (s := s.setHost hs) hb hl hends, ?_⟩, mismatch, ioError, allocation⟩
  all_goals
    rw [hl]
    rfl

end Sys2Proof.Machine
end

section
/-! PROOFS. Registers are written before they are read: the block's bus behaviour does not rest on what they hold at
IDLE (spec/10_state.md R53, spec/60_exceptions.md R396, spec/70_reset_and_hazards.md R420). -/

namespace Sys2Proof.Machine

/-! ### What a block can still read -/

/-- The procedure that an operation is (R280, R320, R350). -/
inductive Operation where
  | execute
  | setRate
  | openHost

/-- The procedure that the operation of a request is. -/
def Operation.ofInstr : Instr → Operation
  | .exec .. | .execRd .. | .execWr .. => .execute
  | .setRate => .setRate
  | .openHost => .openHost

/-- Can the operation, from this label on, read `FLAGS` before it writes them? No operation but EXECUTE reads them, and
E0 writes them first (R280). -/
def Operation.readsFlags : Operation → Label → Bool
  | .execute, .idle | .execute, .execute .e0 => false
  | .execute, _ => true
  | .setRate, _ | .openHost, _ => false

/-- The same for the draw: OPEN alone reads it, and O0 writes it first (R350, R354). -/
def Operation.readsAlloc : Operation → Label → Bool
  | .openHost, .idle | .openHost, .openHost .o0 => false
  | .openHost, _ => true
  | .execute, _ | .setRate, _ => false

namespace Label

/-- The same for the poll registers, which A0 writes first (R150). -/
def readsPoll : Label → Bool
  | .await (.a0 ..) => false
  | .await _ => true
  | _ => false

/-- The same for `SNAP`, which each status read writes first (R46). -/
def readsSnap : Label → Bool
  | .stopClock .s1 | .await .a2 => true
  | .decode l =>
    match l with
    | .dc0 | .dc10 | .dc11 | .dc12 => false
    | _ => true
  | .readPump l =>
    match l with
    | .p3 | .p4 | .p4Store | .p5 | .p6 => true
    | _ => false
  | .writePump l =>
    match l with
    | .w3 | .w4 | .w4Send | .w5 | .w6 | .w7 => true
    | _ => false
  | _ => false

/-- The pump registers with those that are written before they are read at their reset values: `REM` and `CUR` are
written at the pump's first label, `CHUNK` and `J` where a chunk starts, the locals by the read before (R241, R242). -/
def livePump (p : Pump) : Label → Pump
  | .readPump l =>
    match l with
    | .p1 | .p2 | .p3 | .p6 | .p7 => { State.reset.pump with rem := p.rem, cur := p.cur }
    | .p4 | .p5 => { p with v := 0, b := 0 }
    | .p4Store => { p with b := 0 }
    | .p0 | .p8 | .p9 => State.reset.pump
  | .writePump l =>
    match l with
    | .w1 | .w2 | .w3 | .w7 | .w8 => { State.reset.pump with rem := p.rem, cur := p.cur }
    | .w4 | .w5 | .w6 => { p with v := 0, b := 0 }
    | .w4Send => { p with v := 0 }
    | .w0 | .w9 | .w10 | .w11 => State.reset.pump
  | _ => State.reset.pump

/-- The reassembly registers in the same way (R210). -/
def liveAsm (a : Reassembly) : Label → Reassembly
  | .decode .dc3 => { State.reset.asm with ra := a.ra }
  | .decode .dc4 | .decode .dc8 => { State.reset.asm with ra := a.ra, ri := a.ri }
  | .decode .dc5 => { a with rc := 0 }
  | .decode .dc6 => a
  | .decode .dc7 => { State.reset.asm with rc := a.rc, ri := a.ri }
  | _ => State.reset.asm

/-- The response words in the same way: DC10 reads `RESP[0]`, which the first round of DC6 writes (R212, R216). -/
def liveResp (ri : BitVec 2) (r : Response) : Label → Response
  | .decode .dc4 | .decode .dc5 | .decode .dc6 => { State.reset.resp with w0 := if ri = 0 then 0 else r.w0 }
  | .decode .dc7 | .decode .dc8 | .decode .dc9 | .decode .dc10 => { State.reset.resp with w0 := r.w0 }
  | _ => State.reset.resp

/-- The divider registers in the same way (R320). -/
def liveRate (d : Divider) : Label → Divider
  | .setRate .sr4 => { State.reset.rate with ratio := d.ratio }
  | .setRate .sr5 => { State.reset.rate with div := d.div }
  | _ => State.reset.rate

/-- The latched request in the same way: acceptance writes it (R110). -/
def liveRq (q : Latched) : Label → Latched
  | .idle => State.reset.rq
  | _ => q

end Label

/-- `s` as an operation at label `l` can still read it: every register of the block that is written before it is read
holds its reset value. -/
def State.live (o : Operation) (l : Label) (s : State) : State :=
  { s with
    rq := l.liveRq s.rq
    flags := bif o.readsFlags l then s.flags else State.reset.flags
    poll := bif l.readsPoll then s.poll else State.reset.poll
    snap := bif l.readsSnap then s.snap else State.reset.snap
    pump := l.livePump s.pump
    asm := l.liveAsm s.asm
    resp := l.liveResp s.asm.ri s.resp
    done := State.reset.done
    rate := l.liveRate s.rate
    alloc := bif o.readsAlloc l then s.alloc else State.reset.alloc }

/-- `s` as the operation in flight can still read it. -/
def State.visible (o : Operation) (s : State) : State := s.live o s.ctl.seq

/-- What is not the block's, and its control registers, are always visible. -/
theorem eq_of_visible {o : Operation} {s s' : State} (h : s'.visible o = s.visible o) :
    s'.ctl = s.ctl ∧ s'.port = s.port ∧ s'.host = s.host ∧ s'.ctrl = s.ctrl ∧ s'.env = s.env ∧ s'.mem = s.mem ∧
      s'.trace = s.trace :=
  ⟨(congrArg State.ctl h :), (congrArg State.port h :), (congrArg State.host h :), (congrArg State.ctrl h :),
    (congrArg State.env h :), (congrArg State.mem h :), (congrArg State.trace h :)⟩

theorem liveRq_of_ne_idle {l : Label} (h : l ≠ .idle) (q : Latched) : l.liveRq q = q := by
  unfold Label.liveRq
  split
  · exact absurd rfl h
  · rfl

/-- The latched request is visible while an operation is in flight. -/
theorem rq_of_visible {o : Operation} {s s' : State} (h : s'.visible o = s.visible o) (hl : s.ctl.seq ≠ .idle) :
    s'.rq = s.rq := by
  have hrq : s'.ctl.seq.liveRq s'.rq = s.ctl.seq.liveRq s.rq := congrArg State.rq h
  rwa [(eq_of_visible h).1, liveRq_of_ne_idle hl, liveRq_of_ne_idle hl] at hrq

/-! ### Branches, completions, returns and raises -/

section
variable {o o' : Operation} {l : Label} {s s' t t' : State}

/-- Of two states what a function shows of both it shows where a test selects one. -/
theorem branch_congr {f : State → State} {c : Prop} [Decidable c] (hs : f s' = f s) (ht : f t' = f t) :
    f (if c then s' else t') = f (if c then s else t) := by
  split
  · exact hs
  · exact ht

theorem visible_branch {c : Prop} [Decidable c] (hs : s'.visible o = s.visible o) (ht : t'.visible o = t.visible o) :
    (if c then s' else t').visible o = (if c then s else t).visible o :=
  branch_congr (f := State.visible o) hs ht

/-- What a function makes visible of the live part of a state, it makes visible of each state with that part. -/
theorem visible_congr {f : State → State} (hf : ∀ u, (f (u.live o l)).visible o' = (f u).visible o')
    (h : s'.live o l = s.live o l) : (f s').visible o' = (f s).visible o' := by
  rw [← hf s', h, hf]

/-- A completed operation reads no register of the block. -/
theorem complete_visible (r : Result) (site : Option Site) (h : s'.live o l = s.live o l) :
    (complete r site s').visible o = (complete r site s).visible o :=
  visible_congr (f := complete r site) (fun u => by cases o <;> rfl) h

/-- A caller reads again only what its callee keeps: `FLAGS` in EXECUTE and the draw in OPEN. -/
theorem live_of_returnsTo {back : Label} (h : l.returnsTo back = true) (s : State) :
    (s.live o l).live o back = s.live o back := by
  cases l with
  | stopClock l =>
    simp only [Label.returnsTo, Bool.or_eq_true, beq_iff_eq] at h
    obtain (rfl | rfl) | rfl := h <;> cases o <;> rfl
  | await l =>
    simp only [Label.returnsTo, Bool.or_eq_true, beq_iff_eq] at h
    obtain ((((rfl | rfl) | rfl) | rfl) | rfl) | rfl := h <;> cases o <;> rfl
  | startClock l | issue l | decode l | readPump l | writePump l =>
    obtain rfl := beq_iff_eq.mp h
    cases o <;> rfl
  | idle | execute | setRate | openHost => cases h

/-- SET_RATE at SR6, which discards errors, reads again no more than a procedure below it keeps. -/
theorem live_sr6 (hl : l.outermost = false) (hi : l ≠ .idle) (s : State) :
    (s.live o l).live o (.setRate .sr6) = s.live o (.setRate .sr6) := by
  cases l with
  | stopClock | startClock | await | issue | decode | readPump | writePump => cases o <;> rfl
  | idle => exact absurd rfl hi
  | execute | setRate | openHost => cases hl

/-- A procedure with a caller is no operation's own, and is not IDLE. -/
theorem called_of_nested {stk : List Label} (hn : nested l stk = true) (hs : stk ≠ []) :
    l.outermost = false ∧ l ≠ .idle := by
  cases stk with
  | nil => exact absurd rfl hs
  | cons back stk =>
    rw [nested, Bool.and_eq_true] at hn
    obtain ⟨returns, _⟩ := hn
    cases l with
    | stopClock | startClock | await | issue | decode | readPump | writePump => exact ⟨rfl, nofun⟩
    | idle | execute | setRate | openHost => cases returns

/-- A return shows nothing that was not visible. -/
theorem ret_visible (hn : nested l s.ctl.stk = true) (h : s'.live o l = s.live o l) :
    (ret s').visible o = (ret s).visible o := by
  have hctl : s'.ctl = s.ctl := (congrArg State.ctl h :)
  unfold ret
  rw [hctl]
  split
  · exact complete_visible .ok none h
  · rename_i back stk hs
    rw [hs, nested, Bool.and_eq_true] at hn
    obtain ⟨returns, _⟩ := hn
    exact visible_congr (f := fun u => u.setCtl { s.ctl with seq := back, stk := stk })
      (fun u => congrArg (State.setCtl · _) (live_of_returnsTo returns u)) h

/-- A raise shows nothing that was not visible. -/
theorem raise_visible (e : Err) (hn : nested l s.ctl.stk = true) (h : s'.live o l = s.live o l) :
    (raise e s').visible o = (raise e s).visible o := by
  have hctl : s'.ctl = s.ctl := (congrArg State.ctl h :)
  unfold raise
  rw [hctl]
  split
  · exact complete_visible e.result e.site h
  · rename_i back stk hs
    obtain ⟨rfl, inner, hstk⟩ := catcher_some hs
    obtain ⟨hl, hi⟩ := called_of_nested hn (by simp [hstk])
    exact visible_congr (f := fun u => u.setCtl { s.ctl with seq := .setRate .sr6, stk := stk })
      (fun u => congrArg (State.setCtl · _) (live_sr6 hl hi u)) h

end

/-! ### The procedures -/

section
variable {s : State}

theorem executeStep_live {l : ExecuteLabel} (hn : nested (.execute l) s.ctl.stk = true) :
    (executeStep (s.live .execute (.execute l)) l).visible .execute = (executeStep s l).visible .execute := by
  cases l with
  | e0 | e1 | e2Blklen | e2Resto | e3 | e4 | e5 | e6 => rfl
  | e2 => exact visible_branch rfl rfl
  | e7 => exact visible_branch (visible_branch rfl rfl) rfl
  | e8 => exact ret_visible hn rfl

theorem stopClockStep_live (o : Operation) {l : StopClockLabel} (hn : nested (.stopClock l) s.ctl.stk = true) :
    (stopClockStep (s.live o (.stopClock l)) l).visible o = (stopClockStep s l).visible o := by
  cases l with
  | s0 | s2 | s3 => cases o <;> rfl
  | s1 => cases o <;> exact visible_branch rfl (ret_visible hn rfl)
  | s4 => cases o <;> exact ret_visible hn rfl

theorem startClockStep_live {l : StartClockLabel} (hn : nested (.startClock l) s.ctl.stk = true) :
    (startClockStep (s.live .execute (.startClock l)) l).visible .execute =
      (startClockStep s l).visible .execute := by
  cases l with
  | t0 | t1 => rfl
  | t2 => exact ret_visible hn rfl

theorem awaitStep_live (o : Operation) {l : AwaitLabel} (hn : nested (.await l) s.ctl.stk = true) :
    (awaitStep (s.live o (.await l)) l).visible o = (awaitStep s l).visible o := by
  cases l with
  | a0 | a1 | a4 => cases o <;> rfl
  | a2 => cases o <;> exact visible_branch (ret_visible hn rfl) rfl
  | a3 => cases o <;> exact visible_branch (raise_visible _ hn rfl) rfl

theorem issueStep_live {l : IssueLabel} (hn : nested (.issue l) s.ctl.stk = true) :
    (issueStep (s.live .execute (.issue l)) l).visible .execute = (issueStep s l).visible .execute := by
  cases l with
  | i0 | i1 | i2 | i3 | i4 | i5 | i6 => rfl
  | i7 => exact ret_visible hn rfl

/-- In a round but the first `RESP[0]` stays visible. -/
theorem liveResp_round (ri : BitVec 2) (r : Response) :
    (Label.decode .dc5).liveResp ri ((Label.decode .dc4).liveResp ri r) = (Label.decode .dc5).liveResp ri r := by
  simp only [Label.liveResp]
  split <;> rfl

/-- The first round writes `RESP[0]`, and the others keep it (R212). -/
theorem liveResp_put (ri : BitVec 2) (r : Response) (w : Word) :
    (Label.decode .dc7).liveResp ri (((Label.decode .dc6).liveResp ri r).put ri w) =
      (Label.decode .dc7).liveResp ri (r.put ri w) := by
  by_cases h : ri = 0
  · subst h
    rfl
  · simp only [Label.liveResp, if_neg h]
    unfold Response.put
    split <;> rfl

theorem decodeStep_live {l : DecodeLabel} (hn : nested (.decode l) s.ctl.stk = true) :
    (decodeStep (s.live .execute (.decode l)) l).visible .execute = (decodeStep s l).visible .execute := by
  cases l with
  | dc0 | dc2 | dc3 | dc7 => rfl
  | dc1 => exact visible_branch (raise_visible _ hn rfl) rfl
  | dc4 => exact congrArg (State.setResp ((decodeStep s .dc4).visible .execute)) (liveResp_round s.asm.ri s.resp)
  | dc5 => exact congrArg (State.setResp ((decodeStep s .dc5).visible .execute)) (liveResp_round s.asm.ri s.resp)
  | dc6 => exact congrArg (State.setResp ((decodeStep s .dc6).visible .execute)) (liveResp_put s.asm.ri s.resp _)
  | dc8 | dc9 => exact visible_branch rfl rfl
  | dc10 => exact visible_branch (ret_visible hn rfl) rfl
  | dc11 => exact raise_visible _ hn rfl
  | dc12 => exact ret_visible hn rfl

theorem readPumpStep_live {l : ReadPumpLabel} (hn : nested (.readPump l) s.ctl.stk = true) :
    (readPumpStep (s.live .execute (.readPump l)) l).visible .execute = (readPumpStep s l).visible .execute := by
  cases l with
  | p0 | p2 | p4Store | p5 | p7 | p8 => rfl
  | p1 | p3 | p4 => exact visible_branch rfl rfl
  | p6 => exact visible_branch (raise_visible _ hn rfl) rfl
  | p9 => exact ret_visible hn rfl

theorem writePumpStep_live {l : WritePumpLabel} (hn : nested (.writePump l) s.ctl.stk = true) :
    (writePumpStep (s.live .execute (.writePump l)) l).visible .execute = (writePumpStep s l).visible .execute := by
  cases l with
  | w0 | w2 | w4Send | w6 | w8 | w9 | w10 => rfl
  | w1 | w3 | w4 => exact visible_branch rfl rfl
  | w5 => exact branch_congr (f := fun u => (goto (.writePump .w6) u).visible .execute) rfl rfl
  | w7 => exact visible_branch (raise_visible _ hn rfl) rfl
  | w11 => exact ret_visible hn rfl

theorem setRateStep_live {l : SetRateLabel} (hn : nested (.setRate l) s.ctl.stk = true) :
    (setRateStep (s.live .setRate (.setRate l)) l).visible .setRate = (setRateStep s l).visible .setRate := by
  cases l with
  | sr0 | sr3 | sr4 | sr5 => rfl
  | sr1 | sr2 => exact visible_branch rfl rfl
  | sr6 => exact ret_visible hn rfl

theorem openHostStep_live {l : OpenLabel} (hn : nested (.openHost l) s.ctl.stk = true) :
    (openHostStep (s.live .openHost (.openHost l)) l).visible .openHost = (openHostStep s l).visible .openHost := by
  cases l with
  | o1 | o2 | o3 | o4 => rfl
  | o0 => exact visible_branch (raise_visible (l := .openHost .o0) _ hn rfl) rfl
  | o5 => exact visible_branch (raise_visible _ hn rfl) rfl
  | o6 => exact ret_visible (l := .openHost .o6) hn rfl

end

/-- The operation that alone runs a procedure, where only one does. -/
def Label.runBy : Label → Option Operation
  | .execute _ | .startClock _ | .issue _ | .decode _ | .readPump _ | .writePump _ => some .execute
  | .setRate _ => some .setRate
  | .openHost _ => some .openHost
  | .idle | .stopClock _ | .await _ => none

theorem operation_of_runs {i : Instr} {l : Label} {o : Operation} (hr : i.runs l = true) (h : l.runBy = some o) :
    Operation.ofInstr i = o := by
  cases l with
  | execute | startClock | issue | decode | readPump | writePump =>
    obtain rfl := Option.some.inj h
    cases i with
    | exec | execRd | execWr => rfl
    | setRate | openHost => cases hr
  | setRate =>
    obtain rfl := Option.some.inj h
    cases i with
    | setRate => rfl
    | exec | execRd | execWr | openHost => cases hr
  | openHost =>
    obtain rfl := Option.some.inj h
    cases i with
    | openHost => rfl
    | exec | execRd | execWr | setRate => cases hr
  | idle | stopClock | await => cases h

/-- The step at SEQ makes visible of the live part of a state what it makes visible of the whole. -/
theorem procStep_live {i : Instr} {s : State} (hr : i.runs s.ctl.seq = true)
    (hn : nested s.ctl.seq s.ctl.stk = true) :
    (procStep (s.live (.ofInstr i) s.ctl.seq)).visible (.ofInstr i) = (procStep s).visible (.ofInstr i) := by
  unfold procStep
  rw [show (s.live (.ofInstr i) s.ctl.seq).ctl = s.ctl from rfl]
  split <;> rename_i hl <;> rw [hl] at hr hn ⊢
  · rw [nested_idle] at hn
    cases hn
  · exact operation_of_runs hr rfl ▸ executeStep_live hn
  · exact stopClockStep_live _ hn
  · exact operation_of_runs hr rfl ▸ startClockStep_live hn
  · exact awaitStep_live _ hn
  · exact operation_of_runs hr rfl ▸ issueStep_live hn
  · exact operation_of_runs hr rfl ▸ decodeStep_live hn
  · exact operation_of_runs hr rfl ▸ readPumpStep_live hn
  · exact operation_of_runs hr rfl ▸ writePumpStep_live hn
  · exact operation_of_runs hr rfl ▸ setRateStep_live hn
  · exact operation_of_runs hr rfl ▸ openHostStep_live hn

/-- A block in order that is not busy is at IDLE. -/
theorem seq_of_idle {s : State} (hb : s.ctl.busy = false) (h : seqInv s = true) : s.ctl.seq = .idle := by
  simp only [seqInv, hb, Bool.false_eq_true, if_false, Bool.and_eq_true, beq_iff_eq] at h
  exact h.1

/-- An idle block accepts a request that decodes and whose operands are well-formed. -/
theorem present_idle {r : Request} {s : State} {i : Instr} (hb : s.ctl.busy = false) (hd : decode r.req = .ok i)
    (hw : i.wellFormed r.operands = true) :
    present r s = .next (accept r.req i.start (s.setPort r.operands)) := by
  have hexec := exec_idle (s := s.setPort r.operands) hb hw
  rw [encode_of_decode hd] at hexec
  simp only [present, runWord, hd, hexec]

/-! ### Two machines that look alike -/

/-- Two machines in order that look alike to the operation in flight, or are idle with the same bus, host and buffer. -/
structure Alike (s s' : State) : Prop where
  inOrder : seqInv s = true
  visible : ∃ o, s'.visible o = s.visible o ∧
    (s.ctl.busy = true → ∃ i, decode s.rq.req = .ok i ∧ o = .ofInstr i)

namespace Alike

variable {s s' t : State}

/-- What the registers of two idle machines hold does not tell them apart. -/
theorem of_idle (hidle : s.ctl = { seq := .idle, stk := [], busy := false }) (hctl : s'.ctl = s.ctl)
    (hport : s'.port = s.port) (hhost : s'.host = s.host) (hctrl : s'.ctrl = s.ctrl) (henv : s'.env = s.env)
    (hmem : s'.mem = s.mem) (htrace : s'.trace = s.trace) : Alike s s' := by
  refine ⟨seqInv_idle hidle, .execute, ?_, fun hb => absurd ((congrArg Control.busy hidle).symm.trans hb) nofun⟩
  simp only [State.visible, State.live, hctl, hport, hhost, hctrl, henv, hmem, htrace, hidle]
  rfl

/-- A host move taken leaves two machines alike. -/
theorem setHost (h : Alike s s') (moves : List HostMove) : Alike (s.setHost moves) (s'.setHost moves) := by
  obtain ⟨hi, o, hv, ho⟩ := h
  exact ⟨hi, o, (congrArg (State.setHost · moves) hv :), ho⟩

/-- The same store in the buffers of two machines leaves them alike. -/
theorem setMem (h : Alike s s') (m : Memory) : Alike (s.setMem m) (s'.setMem m) := by
  obtain ⟨hi, o, hv, ho⟩ := h
  exact ⟨hi, o, (congrArg (State.setMem · m) hv :), ho⟩

/-- The step at SEQ leaves two machines alike. -/
theorem procStep (h : Alike s s') (hb : s.ctl.busy = true) : Alike (procStep s) (Machine.procStep s') := by
  obtain ⟨hi, o, hv, ho⟩ := h
  obtain ⟨i, hd, rfl⟩ := ho hb
  obtain ⟨hn, j, hdj, hr, _⟩ := own_of_seqInv hb hi
  obtain rfl : j = i := Except.ok.inj (hdj.symm.trans hd)
  have hctl := (eq_of_visible hv).1
  refine ⟨procStep_seqInv hb hi, _, ?_, fun _ => ⟨j, by rw [(procStep_keeps s).1, hd], rfl⟩⟩
  calc (Machine.procStep s').visible (.ofInstr j)
    _ = (Machine.procStep (s'.visible (.ofInstr j))).visible (.ofInstr j) :=
      (procStep_live (by rwa [hctl]) (by rwa [hctl])).symm
    _ = (Machine.procStep (s.visible (.ofInstr j))).visible (.ofInstr j) := by rw [hv]
    _ = (Machine.procStep s).visible (.ofInstr j) := procStep_live hr hn

/-- The block's own move is the same in two machines that are alike. -/
theorem advance (h : Alike s s') (hs : advance s = .next t) : ∃ t', Machine.advance s' = .next t' ∧ Alike t t' := by
  obtain ⟨o, hv, _⟩ := h.visible
  have hctl := (eq_of_visible hv).1
  rcases advance_cases hs with ⟨hb, rfl⟩ | ⟨hb, i, hd, hr, rfl⟩
  · exact ⟨s', by simp [Machine.advance, hctl, hb], h⟩
  · have hrq := rq_of_visible hv (seq_ne_idle hb h.inOrder)
    have hexec : exec i s' = .next (Machine.procStep s') :=
      exec_busy (by rw [hctl, hb]) (by rw [hrq, encode_of_decode hd]) (by rw [hctl, hr])
    exact ⟨_, by simp [Machine.advance, hctl, hb, runWord, hrq, hd, hexec], h.procStep hb⟩

/-- Acceptance writes what the operation reads of a request, and the operation reads nothing else of the block. -/
theorem present {r : Request} (h : Alike s s') (hb : s.ctl.busy = false) (hs : present r s = .next t) :
    ∃ t', Machine.present r s' = .next t' ∧ Alike t t' := by
  obtain ⟨hi, o, hv, _⟩ := h
  obtain ⟨i, hd, hw, rfl⟩ := present_cases hb hs
  have hctl := (eq_of_visible hv).1
  rw [State.visible, State.visible, hctl, seq_of_idle hb hi] at hv
  refine ⟨_, present_idle (by rw [hctl, hb]) hd hw, accept_seqInv _ hd, .ofInstr i, ?_, fun _ => ⟨i, hd, rfl⟩⟩
  exact visible_congr (f := fun u => accept r.req i.start (u.setPort r.operands)) (fun u => by cases i <;> rfl) hv

/-- A host store is admitted in both of two machines that are alike, or in neither. -/
theorem owns (h : Alike s s') (addr : Word) : s'.owns addr = s.owns addr := by
  obtain ⟨o, hv, _⟩ := h.visible
  have hctl := (eq_of_visible hv).1
  cases hb : s.ctl.busy with
  | false => simp [State.owns, hctl, hb]
  | true =>
    have hrq := rq_of_visible hv (seq_ne_idle hb h.inOrder)
    simp [State.owns, State.data, hctl, hrq]

/-- A host store is the same in two machines that are alike. -/
theorem hostStore {addr : Word} {value : Byte} (h : Alike s s') (hs : hostStore addr value s = .next t) :
    ∃ t', Machine.hostStore addr value s' = .next t' ∧ Alike t t' := by
  obtain ⟨o, hv, _⟩ := h.visible
  obtain ⟨-, -, -, -, -, hmem, -⟩ := eq_of_visible hv
  unfold Machine.hostStore at hs ⊢
  rw [h.owns, hmem]
  split at hs
  · cases hs
  · rename_i ho
    cases hs
    exact ⟨_, if_neg ho, h.setMem _⟩

/-- Whatever the host does, a step is the same in two machines that are alike. -/
theorem step (h : Alike s s') (hs : step s = .next t) : ∃ t', Machine.step s' = .next t' ∧ Alike t t' := by
  obtain ⟨o, hv, _⟩ := h.visible
  obtain ⟨hctl, hport, hhost, hctrl, henv, hmem, htrace⟩ := eq_of_visible hv
  unfold Machine.step machineStep at hs ⊢
  rw [hhost, hctl]
  cases hh : s.host with
  | nil =>
    simp only [hh] at hs ⊢
    exact h.advance hs
  | cons move rest =>
    have taken := h.setHost rest
    cases move <;> simp only [hh] at hs ⊢
    case request r =>
      split at hs <;> rename_i hb
      · rw [if_pos hb]
        exact h.advance hs
      · rw [if_neg hb]
        exact taken.present (Bool.eq_false_iff.mpr hb) hs
    case requestNow r =>
      split at hs <;> rename_i hb
      · cases hs
      · rw [if_neg hb]
        exact taken.present (Bool.eq_false_iff.mpr hb) hs
    case reset =>
      cases hs
      exact ⟨_, rfl, of_idle rfl rfl hport rfl hctrl henv hmem htrace⟩
    case store addr value => exact taken.hostStore hs
    case wait => exact taken.advance hs

/-- So is a run. -/
theorem run {k : Nat} (h : Alike s s') (hr : run k s = .next t) : ∃ t', Machine.run k s' = .next t' ∧ Alike t t' := by
  induction k generalizing s s' with
  | zero =>
    cases hr
    exact ⟨s', rfl, h⟩
  | succ k ih =>
    obtain ⟨u, hu, hru⟩ := exists_step_of_run hr
    obtain ⟨u', hu', h⟩ := h.step hu
    obtain ⟨t', hr', h⟩ := ih h hru
    exact ⟨t', (run_succ hu').trans hr', h⟩

end Alike

/-- Settles O51: idle machines with the same bus, host and buffer are alike, and a run keeps them alike. -/
theorem registerContentsNeverMatter : Obligations.RegisterContentsNeverMatter := by
  intro s s' t k hidle hctl hport hhost hctrl henv hmem htrace hr
  obtain ⟨t', hr', h⟩ := (Alike.of_idle hidle hctl hport hhost hctrl henv hmem htrace).run hr
  obtain ⟨o, hv, _⟩ := h.visible
  obtain ⟨hctl, hport, hhost, hctrl, henv, hmem, htrace⟩ := eq_of_visible hv
  exact ⟨t', hr', htrace, henv, hmem, hctrl, hctl, hhost, hport⟩

end Sys2Proof.Machine
end
